-- ==== Sys2Proof/Word.lean ====
section
/-! DEFINITION. The word types of CFW128 (00_scope.md R9 to R11): all values are unsigned, bit 0 is the least significant. -/

namespace Sys2Proof

/-- One byte lane of the host bus; also a skip-table entry and the TZCNT field. -/
abbrev Byte := BitVec 8

/-- The 32-bit fields of a step-table entry (R9). -/
abbrev Half := BitVec 32

/-- The host data width and the width of every register (R10). -/
abbrev Word := BitVec 64

/-- The accumulator's value, `{ACC_HI, ACC_LO}` (R13). -/
abbrev Wide := BitVec 128

/-- A host byte address, an offset from the base the platform chooses (R10, R60, R233). -/
abbrev Addr := BitVec 32

end Sys2Proof
end

