-- ==== Sys2Proof/Syntax.lean ====
section
/-! DEFINITION. The commands of 30_encoding.md R92: one constructor per row of spec/opcode_table.json. -/

namespace Sys2Proof

/-- A command. No command has an operand field: every operand is an implicit register (30_encoding.md R93). -/
inductive Instr where
  /-- NOP, opcode 0x00 (40_datapath.md R121). -/
  | nop
  /-- ADD, opcode 0x01: checked addition (40_datapath.md R122). -/
  | add
  /-- MUL, opcode 0x02: checked multiplication (40_datapath.md R126). -/
  | mul
  /-- RTZ, opcode 0x03: remove trailing zeros and count them (40_datapath.md R131). -/
  | rtz
  /-- STEP, opcode 0x04: one table-driven fused step (41_sequencer.md R152). -/
  | step
  /-- VERIFY, opcode 0x05: verify a range of candidates (41_sequencer.md R154). -/
  | verify
  deriving DecidableEq, Repr

end Sys2Proof
end

