-- ==== Sys2Proof/WellFormed.lean ====
section
/-! DEFINITION. Which command words and which commands are well formed (30_encoding.md R90, R94). The check is stated
on the word as a number, apart from the decoder's own field extraction. -/

namespace Sys2Proof

/-- The two checks of 30_encoding.md R94, each with a name. -/
inductive WordCheck where
  /-- `w[63:8]` must be 0. -/
  | reservedZero
  /-- `w[7:0]` must be one of the six opcodes of R92. -/
  | opcodeAssigned
  deriving DecidableEq, Repr

/-- Whether a command word passes one check. -/
def WordCheck.passes (w : Word) : WordCheck → Bool
  | .reservedZero => w.toNat / 256 == 0
  | .opcodeAssigned => w.toNat % 256 ≤ 5

/-- A command word is well formed when it passes both checks (R94: "Decoding is total", R91). -/
def wellFormedWord (w : Word) : Bool :=
  WordCheck.passes w .reservedZero && WordCheck.passes w .opcodeAssigned

/-- Every command is well formed: it has no field that could be out of range (R93). -/
def Instr.wellFormed : Instr → Bool
  | .nop => true
  | .add => true
  | .mul => true
  | .rtz => true
  | .step => true
  | .verify => true

end Sys2Proof
end

