-- ==== Sys2Proof/Decode.lean ====
section
/-! DEFINITION. The decoder of 30_encoding.md R91 and the encoder of R92. -/

namespace Sys2Proof

/-- Why a CMD word is no command (30_encoding.md R94). Either way the write signals ERR(ILLEGAL). -/
inductive Illegal where
  /-- `w[63:8] ≠ 0`. -/
  | reservedBits
  /-- `w[7:0]` in 0x06..0xFF. -/
  | opcode
  deriving DecidableEq, Repr

/-- OPC, bits [7:0] of a command word (R90). -/
def opcField (w : Word) : BitVec 8 := w.extractLsb' 0 8

/-- RSV, bits [63:8] of a command word (R90). -/
def rsvField (w : Word) : BitVec 56 := w.extractLsb' 8 56

/-- The command of an opcode (R91, R92). -/
def decodeOpcode (opc : Nat) : Except Illegal Instr :=
  match opc with
  | 0x00 => .ok .nop
  | 0x01 => .ok .add
  | 0x02 => .ok .mul
  | 0x03 => .ok .rtz
  | 0x04 => .ok .step
  | 0x05 => .ok .verify
  | _ => .error .opcode

/-- Decoding of a CMD word (R91): total, the reserved bits tested before the opcode. -/
def decode (w : Word) : Except Illegal Instr :=
  if rsvField w ≠ 0#56 then .error .reservedBits else decodeOpcode (opcField w).toNat

/-- The opcode of a command (R92). -/
def Instr.opcode : Instr → BitVec 8
  | .nop => 0x00#8
  | .add => 0x01#8
  | .mul => 0x02#8
  | .rtz => 0x03#8
  | .step => 0x04#8
  | .verify => 0x05#8

/-- The command word of a command (R90): RSV all zero above OPC. -/
def encode (i : Instr) : Word := 0#56 ++ i.opcode

/-- The instruction decoded from a table row's bits: the word holds `nbits` bits of `w`, every bit above is 0 (R90: one
format of one 64-bit word). -/
def decodeTableWord (nbits w : Nat) : Option Instr :=
  if w % 2 ^ nbits < 2 ^ 64 then
    match decode (BitVec.ofNat 64 (w % 2 ^ nbits)) with
    | .ok i => some i
    | .error _ => none
  else none

end Sys2Proof
end

