-- ==== Sys2Proof/Config.lean ====
section
/-! DEFINITION. What the spec fixes as numbers, and the values it leaves open. An open value is an `opaque` constant with
no body: nothing proves what it is, so a statement holds whatever it is. -/

namespace Sys2Proof.Config

/-- K_MAX, the largest step count (00_scope.md R9). -/
def kMax : Nat := 20

/-- First byte of the step-table window (20_memory.md R62). -/
def stBase : Nat := 0x01000000

/-- Entries of the step table, 2^20 (10_state.md R38). -/
def stDepth : Nat := 2 ^ 20

/-- First byte of the skip-table window (20_memory.md R63). -/
def skBase : Nat := 0x80000000

/-- Bytes of the register window (20_memory.md R61). -/
def regWindow : Nat := 0x1000

/-- The forbidden residues mod 9, normative as given (41_sequencer.md R164, 93 O1). -/
def forbiddenResidues : List Nat := [2, 4, 5, 8]

/-- SKIP_LOG2_MAX, the OPEN parameter of the instance, 0 to 28 (00_scope.md R10, 93 P1). Free: log 4. -/
opaque skipLog2Max : Fin 29

/-- The byte at a table address that has not been written since reset number `epoch` (10_state.md R43, 93 I1): one free
value per entry and reset, kept until the entry is written. Free: log 5. -/
opaque tableByte (epoch addr : Nat) : Byte

/-- The data of the `n`-th host read made while BUSY = 1 of a location other than STATUS (20_memory.md R71, 93 I2): a
free draw per read. Free: log 6. -/
opaque busyRead (n : Nat) : Word

end Sys2Proof.Config
end

