-- ==== Sys2Proof/Machine/State.lean ====
section
/-! DEFINITION. The state of CFW128 (10_state.md R42), the model's own fields beside it, the reasons a step can stop, and
the state after reset (R43). -/

namespace Sys2Proof.Machine

/-- PHASE, the sequencer's control state (10_state.md R40). -/
inductive Phase where
  | idle
  | outer
  | inner
  | skip
  deriving DecidableEq, Repr

/-- STATUS.ERR (60_exceptions.md R222). Codes 4 to 15 are never produced, so they have no constructor. -/
inductive ErrCode where
  | none
  | illegal
  | operand
  | noTable
  deriving DecidableEq, Repr

/-- STATUS.RKIND (60_exceptions.md R226). Codes 5 to 7 are never produced, so they have no constructor. -/
inductive ResultKind where
  | none
  | complete
  | overflow
  | wrap
  | empty
  deriving DecidableEq, Repr

/-- The two agents that can take a step (00_scope.md R17). -/
inductive Agent where
  | host
  | sequencer
  deriving DecidableEq, Repr

/-- One bus access of the host: its address, its size in bytes and, for a write, its data (00_scope.md R13). -/
inductive Access where
  /-- `MemRead(addr, size)`. -/
  | read (addr : Addr) (size : Nat)
  /-- `MemWrite(addr, size, data)`. -/
  | write (addr : Addr) (size : Nat) (data : Word)
  deriving DecidableEq, Repr

/-- One pending operation at the host interface: the basic operations of 30_encoding.md R96 and the reset input of
70_reset_and_hazards.md R250. -/
inductive HostOp where
  /-- `wr` or `rd`: one bus access. -/
  | access (a : Access)
  /-- `poll`: read STATUS again and again until the value read has bit 0 = 0. -/
  | poll
  /-- The reset input is asserted and released (log 8). -/
  | reset
  deriving DecidableEq, Repr

/-- What the host's last access was answered with. -/
inductive BusResponse where
  /-- No access since reset. -/
  | none
  /-- A write was completed, or dropped without an error (60_exceptions.md R224). -/
  | writeDone
  /-- A read returned `v`. -/
  | readData (v : Word)
  deriving DecidableEq, Repr

/-- The table memory, ST and SK, as the bytes written since reset: addresses strictly rising (`Memory.wf`). An address
that is not listed holds no written byte, and `tableByte` reads it as the free value of its entry (log 5). -/
abbrev Memory := List Host.Cell

/-- The state of one CFW128 instance. -/
structure State where
  /-- ACC_LO, bits 63:0 of ACC (R20, R28). -/
  accLo : Word
  /-- ACC_HI, bits 127:64 of ACC (R20, R28). -/
  accHi : Word
  /-- OPND (R27). -/
  opnd : Word
  /-- TZCNT[7:0] (R29). -/
  tzcnt : Byte
  /-- K, KCFG[4:0] (R30). -/
  k : BitVec 5
  /-- L, SKCFG[4:0] (R31). -/
  l : BitVec 5
  /-- TVALID[0], step table present (R32). -/
  stValid : Bool
  /-- TVALID[1], skip table present (R32). -/
  skValid : Bool
  /-- START (R33). -/
  startReg : Word
  /-- END, inclusive (R33). -/
  endReg : Word
  /-- RESULT (R34). -/
  result : Word
  /-- CURSOR (R35). -/
  cursor : Word
  /-- STATUS.OVF (R26). -/
  ovf : Bool
  /-- STATUS.ERR (R26). -/
  err : ErrCode
  /-- STATUS.RKIND (R26). -/
  rkind : ResultKind
  /-- PHASE (R40). -/
  phase : Phase
  /-- PREV (R41). -/
  prev : Word
  /-- ST and SK (R38, R39). -/
  mem : Memory
  /-- Model's own: SKIP_LOG2_MAX of this instance (93 P1); no step changes it (log 4). -/
  skipLog2Max : Fin 29
  /-- Model's own: resets so far, selects the free table content (log 5). -/
  epoch : Nat
  /-- Model's own: free reads drawn so far (log 6). -/
  draws : Nat
  /-- Model's own: the host's pending operations, oldest first (log 1). -/
  host : List HostOp
  /-- Model's own: which agent moves next while both can (log 2). -/
  sched : List Agent
  /-- Model's own: the answer to the host's last access (log 9). -/
  response : BusResponse
  deriving DecidableEq, Repr

/-- Why a step stops with a fault. -/
inductive Fault where
  /-- The host's next access is not 8 bytes wide or not 8-byte aligned: a bus error response, no state changes
  (20_memory.md R67). Raised by `performAccess` only. Safe: 93 I3 names this treatment (log 7). -/
  | busError
  deriving DecidableEq, Repr

/-- Why a step has no meaning. -/
inductive Refusal where
  /-- The command is not modelled. Raised by an arm of `exec` that has no meaning yet; no arm is left so. Safe. -/
  | notModelled (mnemonic : String)
  deriving DecidableEq, Repr

/-- The state after reset of an instance with parameter `n` (10_state.md R43): every register 0, PHASE IDLE, both tables
absent, no table byte written; the host has nothing pending. -/
def State.resetWith (n : Fin 29) : State where
  accLo := 0#64
  accHi := 0#64
  opnd := 0#64
  tzcnt := 0#8
  k := 0#5
  l := 0#5
  stValid := false
  skValid := false
  startReg := 0#64
  endReg := 0#64
  result := 0#64
  cursor := 0#64
  ovf := false
  err := .none
  rkind := .none
  phase := .idle
  prev := 0#64
  mem := []
  skipLog2Max := n
  epoch := 0
  draws := 0
  host := []
  sched := []
  response := .none

/-- The state after reset (10_state.md R43) for the open parameter of `Config` (log 4). -/
def State.reset : State := State.resetWith Config.skipLog2Max

end Sys2Proof.Machine
end

