-- ==== Sys2Proof/Machine/Memory.lean ====
section
/-! DEFINITION. The operations on the table memory: a list of written bytes by address, in one canonical form. -/

namespace Sys2Proof.Machine

/-- Whether every address of `m` is above `a` and the addresses rise strictly. -/
def Memory.risesFrom (a : Nat) : Memory → Bool
  | [] => true
  | c :: m => decide (a < c.1) && Memory.risesFrom c.1 m

/-- The canonical form: addresses strictly rising. An unlisted address holds no byte, so no entry can equal what an
unlisted address holds. -/
def Memory.wf : Memory → Bool
  | [] => true
  | c :: m => Memory.risesFrom c.1 m

/-- The byte written at `a`, if one was written since reset. -/
def Memory.lookup (m : Memory) (a : Nat) : Option Byte :=
  match m with
  | [] => none
  | c :: m => if c.1 = a then some c.2 else Memory.lookup m a

/-- Write one byte, keeping the addresses rising. -/
def Memory.insert (m : Memory) (a : Nat) (b : Byte) : Memory :=
  match m with
  | [] => [(a, b)]
  | c :: m =>
    if a < c.1 then (a, b) :: c :: m
    else if a = c.1 then (a, b) :: m
    else c :: Memory.insert m a b

/-- Write bytes at rising addresses from `a`. -/
def Memory.store (m : Memory) (a : Nat) : List Byte → Memory
  | [] => m
  | b :: bs => Memory.store (Memory.insert m a b) (a + 1) bs

/-- The bytes of a word: byte address `a + i` carries bits `[8i+7:8i]` (20_memory.md R68). -/
def wordBytes (w : Word) : List Byte :=
  [w.extractLsb' 0 8, w.extractLsb' 8 8, w.extractLsb' 16 8, w.extractLsb' 24 8,
   w.extractLsb' 32 8, w.extractLsb' 40 8, w.extractLsb' 48 8, w.extractLsb' 56 8]

/-- The word whose byte `i` is `f (a + i)` (20_memory.md R68). -/
def wordOf (f : Nat → Byte) (a : Nat) : Word :=
  f (a + 7) ++ f (a + 6) ++ f (a + 5) ++ f (a + 4) ++ f (a + 3) ++ f (a + 2) ++ f (a + 1) ++ f a

end Sys2Proof.Machine
end

