-- ==== Sys2Proof/Machine/Ops.lean ====
section
/-! DEFINITION. The named operations over the accumulator, the tables and the outcome fields that the commands and the
sequencer share. The block has no trap (60_exceptions.md R228): what stands in the place of taking an exception is
`signalErr`, and there is no return from one (R229). -/

namespace Sys2Proof.Machine

/-- ACC, `{ACC_HI, ACC_LO}` (00_scope.md R13). -/
def State.acc (s : State) : Wide := s.accHi ++ s.accLo

/-- `ACC <- v` (00_scope.md R13). -/
def State.setAcc (s : State) (v : Wide) : State :=
  { s with accLo := v.extractLsb' 0 64, accHi := v.extractLsb' 64 64 }

/-- `TZCNT <- c` (10_state.md R29). -/
def State.setTzcnt (s : State) (c : Byte) : State := { s with tzcnt := c }

/-- `signal ERR(code)` (60_exceptions.md R222): ERR gets the code, OVF is cleared and nothing else is written. -/
def signalErr (s : State) (code : ErrCode) : State := { s with ovf := false, err := code }

/-- The end of a command that signals no error (60_exceptions.md R221, R222): OVF as the command says, ERR NONE. -/
def commandDone (s : State) (overflow : Bool) : State := { s with ovf := overflow, err := .none }

/-- The 128-bit value of an exact natural number, or overflow when it does not fit (00_scope.md R12). -/
def fits128 (n : Nat) : Option Wide := if n < 2 ^ 128 then some (BitVec.ofNat 128 n) else none

/-- The checked addition of 40_datapath.md R123. -/
def checkedAdd (v : Wide) (o : Word) : Option Wide := fits128 (v.toNat + o.toNat)

/-- The checked multiplication of 40_datapath.md R127. -/
def checkedMul (v : Wide) (r : Half) : Option Wide := fits128 (v.toNat * r.toNat)

/-- The trailing zero bits of `n`, at most `width` of them, so `width` for 0. -/
def ctz : (width : Nat) → (n : Nat) → Nat
  | 0, _ => 0
  | width + 1, n => if n % 2 = 1 then 0 else ctz width (n / 2) + 1

/-- `ctz128(v)` (00_scope.md R14): `ctz128(0) = 128`. -/
def ctz128 (v : Wide) : Nat := ctz 128 v.toNat

/-- `rtz(v)` (00_scope.md R14): the value with its trailing zeros removed and their count. -/
def rtz (v : Wide) : Wide × Byte := (v >>> ctz128 v, BitVec.ofNat 8 (ctz128 v))

/-- A byte of table storage: the byte written since reset, or the free value of its entry (93 I1). -/
def tableByte (s : State) (a : Nat) : Byte := (Memory.lookup s.mem a).getD (Config.tableByte s.epoch a)

/-- The byte address of step-table entry `j` (20_memory.md R62). -/
def stAddr (j : Nat) : Nat := Config.stBase + 8 * j

/-- The byte address of skip-table entry `j` (20_memory.md R63); bits [7:0] of its word lie there (R65, R68). -/
def skAddr (j : Nat) : Nat := Config.skBase + 8 * j

/-- The word of step-table entry `j`, `{off, mult}` (20_memory.md R64). -/
def stWord (s : State) (j : Nat) : Word := wordOf (tableByte s) (stAddr j)

/-- `ST[j].mult`, bits [31:0] (20_memory.md R64). -/
def stMult (s : State) (j : Nat) : Half := (stWord s j).extractLsb' 0 32

/-- `ST[j].off`, bits [63:32] (20_memory.md R64). -/
def stOff (s : State) (j : Nat) : Half := (stWord s j).extractLsb' 32 32

/-- `SK[j]` (20_memory.md R65). -/
def skEntry (s : State) (j : Nat) : Byte := tableByte s (skAddr j)

/-- `ST[j] <- (w[31:0], w[63:32])` (20_memory.md R64). -/
def State.writeStep (s : State) (j : Nat) (w : Word) : State :=
  { s with mem := Memory.store s.mem (stAddr j) (wordBytes w) }

/-- `SK[j] <- w[7:0]`; bits [63:8] are not stored (20_memory.md R65). -/
def State.writeSkip (s : State) (j : Nat) (w : Word) : State :=
  { s with mem := Memory.insert s.mem (skAddr j) (w.extractLsb' 0 8) }

/-- What a reset takes over from the state `before` it: the next reset count, and what is not the block's. -/
def State.keepOutside (s before : State) : State :=
  { s with epoch := before.epoch + 1, draws := before.draws, host := before.host, sched := before.sched }

/-- The reset event (70_reset_and_hazards.md R250): every piece of the block's state gets its reset value, and the tables
get new free content. The instance's parameter, the host's pending operations, the interleaving and the count of free
reads are not the block's and stay (log 8). -/
def applyReset (s : State) : State := (State.resetWith s.skipLog2Max).keepOutside s

end Sys2Proof.Machine
end

