-- ==== Sys2Proof/Machine/Operands.lean ====
section
/-! DEFINITION. The operand forms of 30_encoding.md R93: every operand is an implicit register or a table entry. -/

namespace Sys2Proof.Machine

/-- The ADD operand: all of OPND (R93, 40_datapath.md R122). -/
def addOperand (s : State) : Word := s.opnd

/-- The MUL operand: OPND[31:0], or none where OPND[63:32] ≠ 0 (R93, 40_datapath.md R128). -/
def mulOperand (s : State) : Option Half :=
  if s.opnd.extractLsb' 32 32 ≠ 0#32 then none else some (s.opnd.extractLsb' 0 32)

/-- `kidx(K) = max(K, 1)`, the width of the step-table index (00_scope.md R14, 41_sequencer.md R151). -/
def kidx (k : Nat) : Nat := max k 1

/-- The step-table index of `v`, taken before the shift (41_sequencer.md R150, R151). -/
def stepIndex (s : State) (v : Wide) : Nat := v.toNat % 2 ^ kidx s.k.toNat

/-- `v >> K` (41_sequencer.md R150). -/
def stepShifted (s : State) (v : Wide) : Wide := v >>> s.k.toNat

/-- The exact sum of the fused step before the zeros are removed (41_sequencer.md R150). -/
def fusedSum (s : State) (v : Wide) : Nat :=
  v.toNat / 2 ^ s.k.toNat * (stMult s (stepIndex s v)).toNat + (stOff s (stepIndex s v)).toNat

/-- The fused step FS (41_sequencer.md R150): index, shift, multiply, add, remove zeros; `none` is OVERFLOW. -/
def fusedStep (s : State) (v : Wide) : Option (Wide × Byte) :=
  match checkedMul (stepShifted s v) (stMult s (stepIndex s v)) with
  | none => none
  | some p =>
    match checkedAdd p ((stOff s (stepIndex s v)).setWidth 64) with
    | none => none
    | some q => some (rtz q)

/-- The skip-table index of a cursor, `(CURSOR >> 2) mod 2^L` (41_sequencer.md R162). -/
def skipIndex (s : State) (cursor : Word) : Nat := cursor.toNat / 4 % 2 ^ s.l.toNat

/-- The skip amount at a cursor (41_sequencer.md R162). -/
def skipAmount (s : State) (cursor : Word) : Byte := skEntry s (skipIndex s cursor)

/-- The cursor after one skip: a 64-bit addition that wraps (41_sequencer.md R163). -/
def skipTarget (s : State) (cursor : Word) : Word := cursor + (skipAmount s cursor).setWidth 64

/-- The forbidden-residue test (41_sequencer.md R164). -/
def forbiddenResidue (n : Word) : Bool := Config.forbiddenResidues.contains (n.toNat % 9)

/-- START rounded up to the next value ≡ 3 mod 4 (41_sequencer.md R157). -/
def firstCandidate (start : Word) : Word := start ||| 3#64

end Sys2Proof.Machine
end

