-- ==== Sys2Proof/Machine/Flags.lean ====
section
/-! DEFINITION. The flags of 10_state.md R37 and the STATUS word of R26. -/

namespace Sys2Proof.Machine

/-- STATUS.BUSY: 1 exactly when PHASE ≠ IDLE (10_state.md R26, R40). -/
def State.busy (s : State) : Bool := s.phase ≠ .idle

/-- The 4-bit code of STATUS.ERR (60_exceptions.md R222). -/
def ErrCode.code : ErrCode → BitVec 4
  | .none => 0#4
  | .illegal => 1#4
  | .operand => 2#4
  | .noTable => 3#4

/-- The 3-bit code of STATUS.RKIND (60_exceptions.md R226). -/
def ResultKind.code : ResultKind → BitVec 3
  | .none => 0#3
  | .complete => 1#3
  | .overflow => 2#3
  | .wrap => 3#3
  | .empty => 4#3

/-- The STATUS word (10_state.md R26): RKIND [10:8], ERR [7:4], OVF [1], BUSY [0], all other bits 0. -/
def statusWord (s : State) : Word :=
  0#53 ++ s.rkind.code ++ s.err.code ++ 0#2 ++ BitVec.ofBool s.ovf ++ BitVec.ofBool s.busy

/-- The end of ADD, MUL or STEP (60_exceptions.md R221): an overflow leaves the destinations as they are and sets OVF; a
result is written by `write` and clears OVF. ERR is NONE either way. -/
def completeChecked {α : Type} (s : State) (r : Option α) (write : State → α → State) : State :=
  match r with
  | none => commandDone s true
  | some v => commandDone (write s v) false

/-- The destinations of a trailing-zero removal: ACC and TZCNT (10_state.md R29). -/
def State.setRtz (s : State) (r : Wide × Byte) : State := (s.setAcc r.1).setTzcnt r.2

/-- `PHASE <- p` (00_scope.md R13, 10_state.md R40). -/
def State.setPhase (s : State) (p : Phase) : State := { s with phase := p }

/-- STATUS.OVF <- 1 at the end of a VERIFY that overflowed (41_sequencer.md R161). -/
def State.raiseOvf (s : State) : State := { s with ovf := true }

/-- The end of a VERIFY: RESULT, RKIND and PHASE (41_sequencer.md R159, R161, R163). -/
def finishVerify (s : State) (value : Word) (kind : ResultKind) : State :=
  { s with result := value, rkind := kind, phase := .idle }

end Sys2Proof.Machine
end

