-- ==== Sys2Proof/Machine/Datapath.lean ====
section
/-! DEFINITION. The datapath commands of 40_datapath.md: NOP, ADD, MUL, RTZ. Each meaning is the whole effect of the CMD
write that issues the command (R120). -/

namespace Sys2Proof.Machine

/-- NOP (40_datapath.md R121). -/
def execNop (s : State) : Host.Outcome State Fault Refusal := .next (commandDone s false)

/-- ADD (40_datapath.md R123, R124). -/
def execAdd (s : State) : Host.Outcome State Fault Refusal :=
  .next (completeChecked s (checkedAdd s.acc (addOperand s)) State.setAcc)

/-- MUL (40_datapath.md R127, R128): the operand check comes before overflow (60_exceptions.md R225). -/
def execMul (s : State) : Host.Outcome State Fault Refusal :=
  match mulOperand s with
  | none => .next (signalErr s .operand)
  | some r => .next (completeChecked s (checkedMul s.acc r) State.setAcc)

/-- RTZ (40_datapath.md R132). -/
def execRtz (s : State) : Host.Outcome State Fault Refusal := .next (commandDone (s.setRtz (rtz s.acc)) false)

end Sys2Proof.Machine
end

