-- ==== Sys2Proof/Machine/RangeVerifier.lean ====
section
/-! DEFINITION. The table-driven commands STEP and VERIFY (41_sequencer.md R152, R155 to R157) and the sequencer's
transitions (R158 to R164). -/

namespace Sys2Proof.Machine

/-- STEP (41_sequencer.md R152). -/
def execStep (s : State) : Host.Outcome State Fault Refusal :=
  if s.stValid then .next (completeChecked s (fusedStep s s.acc) State.setRtz)
  else .next (signalErr s .noTable)

/-- The start of a VERIFY with both tables present (41_sequencer.md R157). -/
def startVerify (s : State) : State :=
  { s with cursor := firstCandidate s.startReg, rkind := .none, phase := .outer }

/-- The result of a VERIFY with a table absent, complete inside the CMD write (41_sequencer.md R156). -/
def emptyVerify (s : State) : State := { s with result := 0#64, rkind := .empty }

/-- VERIFY as the host issues it (41_sequencer.md R155 to R157): ERR and OVF are cleared at acceptance, whatever the tables.
The run itself is `seqStep`. -/
def execVerify (s : State) : Host.Outcome State Fault Refusal :=
  if s.stValid && s.skValid then .next (startVerify (commandDone s false))
  else .next (emptyVerify (commandDone s false))

/-- The OUTER transition (41_sequencer.md R159). -/
def outerStep (s : State) : State :=
  if s.cursor.toNat > s.endReg.toNat then finishVerify s s.endReg .complete
  else (s.setAcc (s.cursor.setWidth 128)).setPhase .inner

/-- The exit of the trajectory loop (41_sequencer.md R160): PREV gets the resolved candidate. -/
def leaveInner (s : State) : State := { s with prev := s.cursor, phase := .skip }

/-- The INNER transition (41_sequencer.md R160, R161). -/
def innerStep (s : State) : State :=
  if s.acc.toNat < s.cursor.toNat then leaveInner s
  else
    match fusedStep s s.acc with
    | none => (finishVerify s (s.cursor - 1#64) .overflow).raiseOvf
    | some r => s.setRtz r

/-- The cursor and the phase after a skip that did not wrap (41_sequencer.md R163, R164). -/
def advanceCursor (s : State) (n : Word) : State :=
  { s with cursor := n, phase := if forbiddenResidue n then .skip else .outer }

/-- The SKIP transition (41_sequencer.md R162 to R164). -/
def skipStep (s : State) : State :=
  if (skipTarget s s.cursor).toNat < s.prev.toNat then finishVerify s s.prev .wrap
  else advanceCursor s (skipTarget s s.cursor)

/-- One step of the sequencer (41_sequencer.md R158): one transition chosen by PHASE, none when idle. -/
def seqStep (s : State) : State :=
  match s.phase with
  | .idle => s
  | .outer => outerStep s
  | .inner => innerStep s
  | .skip => skipStep s

end Sys2Proof.Machine
end

