-- ==== Sys2Proof/Machine/Registers.lean ====
section
/-! DEFINITION. The register map of 10_state.md R22 and the address map of 20_memory.md R60 to R66: what an idle block
answers to a read, and what a write to a location other than CMD changes. -/

namespace Sys2Proof.Machine

/-- The host-visible registers (10_state.md R22). -/
inductive Reg where
  | cmd
  | status
  | opnd
  | accLo
  | accHi
  | tzcnt
  | kcfg
  | skcfg
  | tvalid
  | start
  | endReg
  | result
  | cursor
  deriving DecidableEq, Repr

/-- What lies at a host address. -/
inductive Location where
  /-- A register of R22. -/
  | register (r : Reg)
  /-- Step-table entry `j` (20_memory.md R62). -/
  | stepEntry (j : Nat)
  /-- Word `j` of the skip-table window, implemented or not (20_memory.md R63). -/
  | skipWord (j : Nat)
  /-- A reserved offset of the register window (10_state.md R36). -/
  | reserved
  /-- An address in none of the three windows (20_memory.md R66). -/
  | unmapped
  deriving DecidableEq, Repr

/-- The byte offset of a register in the register window (10_state.md R22). -/
def Reg.offset : Reg → Nat
  | .cmd => 0x000
  | .status => 0x008
  | .opnd => 0x010
  | .accLo => 0x018
  | .accHi => 0x020
  | .tzcnt => 0x028
  | .kcfg => 0x030
  | .skcfg => 0x038
  | .tvalid => 0x040
  | .start => 0x048
  | .endReg => 0x050
  | .result => 0x058
  | .cursor => 0x060

/-- The register at a word of the register window, none for a reserved offset (10_state.md R22, R36). -/
def Reg.ofWord (word : Nat) : Option Reg :=
  match word with
  | 0 => some .cmd
  | 1 => some .status
  | 2 => some .opnd
  | 3 => some .accLo
  | 4 => some .accHi
  | 5 => some .tzcnt
  | 6 => some .kcfg
  | 7 => some .skcfg
  | 8 => some .tvalid
  | 9 => some .start
  | 10 => some .endReg
  | 11 => some .result
  | 12 => some .cursor
  | _ => none

/-- The byte address of a register: its offset (20_memory.md R61). -/
def Reg.addr (r : Reg) : Addr := BitVec.ofNat 32 r.offset

/-- The location of the aligned 8-byte word at `a` (20_memory.md R60 to R63, R66). -/
def locate (a : Addr) : Location :=
  if a.toNat < Config.regWindow then
    match Reg.ofWord (a.toNat / 8) with
    | some r => .register r
    | none => .reserved
  else if Config.stBase ≤ a.toNat ∧ a.toNat < Config.stBase + 8 * Config.stDepth then
    .stepEntry ((a.toNat - Config.stBase) / 8)
  else if Config.skBase ≤ a.toNat then .skipWord ((a.toNat - Config.skBase) / 8)
  else .unmapped

/-- Whether word `j` of the skip-table window holds an entry (20_memory.md R63). -/
def skipImplemented (s : State) (j : Nat) : Bool := decide (j < 2 ^ s.skipLog2Max.val)

/-- The value of a register as the host reads it (10_state.md R22 to R35): unused bits are 0 and CMD reads 0. -/
def readRegister (s : State) : Reg → Word
  | .cmd => 0#64
  | .status => statusWord s
  | .opnd => s.opnd
  | .accLo => s.accLo
  | .accHi => s.accHi
  | .tzcnt => s.tzcnt.setWidth 64
  | .kcfg => s.k.setWidth 64
  | .skcfg => s.l.setWidth 64
  | .tvalid => 0#62 ++ BitVec.ofBool s.skValid ++ BitVec.ofBool s.stValid
  | .start => s.startReg
  | .endReg => s.endReg
  | .result => s.result
  | .cursor => s.cursor

/-- A host write to a register (10_state.md R24, R27 to R35): KCFG and SKCFG clamp, read-only registers ignore it. CMD has
no storage (R25); the command its write issues is `issueCommand`. -/
def writeRegister (s : State) (r : Reg) (w : Word) : State :=
  match r with
  | .cmd => s
  | .status => s
  | .opnd => { s with opnd := w }
  | .accLo => { s with accLo := w }
  | .accHi => { s with accHi := w }
  | .tzcnt => s
  | .kcfg => { s with k := BitVec.ofNat 5 (min w.toNat Config.kMax) }
  | .skcfg => { s with l := BitVec.ofNat 5 (min w.toNat s.skipLog2Max.val) }
  | .tvalid => { s with stValid := w.getLsbD 0, skValid := w.getLsbD 1 }
  | .start => { s with startReg := w }
  | .endReg => { s with endReg := w }
  | .result => s
  | .cursor => s

/-- The data of a read of an idle block (20_memory.md R64 to R66). -/
def readLocation (s : State) : Location → Word
  | .register r => readRegister s r
  | .stepEntry j => stWord s j
  | .skipWord j => if skipImplemented s j then (skEntry s j).setWidth 64 else 0#64
  | .reserved => 0#64
  | .unmapped => 0#64

/-- A write to an idle block at a location other than CMD (20_memory.md R64 to R66). -/
def writeLocation (s : State) (loc : Location) (w : Word) : State :=
  match loc with
  | .register r => writeRegister s r w
  | .stepEntry j => s.writeStep j w
  | .skipWord j => if skipImplemented s j then s.writeSkip j w else s
  | .reserved => s
  | .unmapped => s

end Sys2Proof.Machine
end

