-- ==== Sys2Proof/Machine/Bus.lean ====
section
/-! DEFINITION. The host agent: bus accesses, polling and reset (20_memory.md R67 to R73, 70_reset_and_hazards.md R250),
and which of the two agents takes the next step (00_scope.md R17). -/

namespace Sys2Proof.Machine

/-- The byte address of an access. -/
def Access.addr : Access → Addr
  | .read a _ => a
  | .write a _ _ => a

/-- The size of an access in bytes. -/
def Access.size : Access → Nat
  | .read _ n => n
  | .write _ n _ => n

/-- An access is admitted when it moves 8 bytes at a multiple of 8 (20_memory.md R67). -/
def Access.admitted (a : Access) : Bool := decide (a.size = 8) && decide (a.addr.toNat % 8 = 0)

/-- The host port's answer to the access it has just performed. -/
def State.answer (s : State) (r : BusResponse) : State := { s with response := r }

/-- One more free read has been drawn (log 6). -/
def State.countDraw (s : State) : State := { s with draws := s.draws + 1 }

/-- A CMD write of `w` while BUSY = 0 (30_encoding.md R91): the decoded command's meaning, or ERR(ILLEGAL). -/
def issueCommand (s : State) (w : Word) : Host.Outcome State Fault Refusal :=
  match decode w with
  | .ok i => exec i s
  | .error _ => .next (signalErr s .illegal)

/-- A host read (20_memory.md R64 to R66, R71): STATUS is always current; every other location of a busy block gives a
free draw. -/
def performRead (s : State) (loc : Location) : State :=
  if s.busy && decide (loc ≠ .register .status) then
    (s.answer (.readData (Config.busyRead s.draws))).countDraw
  else s.answer (.readData (readLocation s loc))

/-- A host write (20_memory.md R64 to R66, R70): dropped while BUSY = 1, a command when it goes to CMD. -/
def performWrite (s : State) (loc : Location) (w : Word) : Host.Outcome State Fault Refusal :=
  if s.busy then .next (s.answer .writeDone)
  else if loc = .register .cmd then issueCommand (s.answer .writeDone) w
  else .next (writeLocation (s.answer .writeDone) loc w)

/-- One bus access (20_memory.md R67): refused with a bus error unless it is admitted. -/
def performAccess (s : State) (a : Access) : Host.Outcome State Fault Refusal :=
  if a.admitted then
    match a with
    | .read addr _ => .next (performRead s (locate addr))
    | .write addr _ w => performWrite s (locate addr) w
  else .fault .busError

/-- The host's pending operations after the first. -/
def State.withHost (s : State) (rest : List HostOp) : State := { s with host := rest }

/-- One step of the host agent: the first pending operation. A `poll` reads STATUS and stays pending while BUSY = 1
(30_encoding.md R96). With nothing pending, nothing changes (60_exceptions.md R237, log 3). -/
def hostStep (s : State) : Host.Outcome State Fault Refusal :=
  match s.host with
  | [] => .next s
  | .access a :: rest => performAccess (s.withHost rest) a
  | .poll :: rest =>
    .next ((if s.busy then s else s.withHost rest).answer (.readData (statusWord s)))
  | .reset :: rest => .next (applyReset (s.withHost rest))

/-- Which agent takes the next step, and the interleaving that is left (00_scope.md R17, 41_sequencer.md R158): an idle
block leaves the step to the host; with nothing pending at the host the sequencer moves; where both can move, `sched`
says which, and the sequencer moves when it says nothing (log 2). -/
def chooseAgent (s : State) : Agent × List Agent :=
  if s.busy then
    match s.host with
    | [] => (.sequencer, s.sched)
    | _ :: _ =>
      match s.sched with
      | [] => (.sequencer, [])
      | a :: rest => (a, rest)
  else (.host, s.sched)

/-- The state with the interleaving that is left. -/
def State.withSched (s : State) (rest : List Agent) : State := { s with sched := rest }

/-- One step of the machine: one step of the agent whose turn it is. -/
def machineStep (s : State) : Host.Outcome State Fault Refusal :=
  match (chooseAgent s).1 with
  | .host => hostStep (s.withSched (chooseAgent s).2)
  | .sequencer => .next (seqStep (s.withSched (chooseAgent s).2))

/-- The state in which the host is about to write the command word with the bits `w` of an `nbits`-bit table row to CMD
of an idle block: the write is put before the host's other pending operations (log 1). -/
def placeCommand (s : State) (nbits w : Nat) : State :=
  { s with
    phase := .idle
    host := .access (.write Reg.cmd.addr 8 (BitVec.ofNat 64 (w % 2 ^ nbits))) :: s.host }

end Sys2Proof.Machine
end

