-- ==== Sys2Proof/Machine/Step.lean ====
section
/-! DEFINITION. The step of the machine and the placing of a command where the next step takes it. -/

namespace Sys2Proof.Machine

/-- One step: of the host or of the sequencer (00_scope.md R17). -/
def step (s : State) : Host.Outcome State Fault Refusal := Sys2Proof.Machine.machineStep s

/-- `s` with the command word of a table row as the host's next CMD write (log 1). -/
def State.withFetchWord (s : State) (nbits w : Nat) : State := Sys2Proof.Machine.placeCommand s nbits w

end Sys2Proof.Machine
end

