-- ==== Sys2Proof/Machine/HostTables.lean ====
section
/-! DEFINITION. The tables a correct host loads (48_host_tables.md R190 to R205): reference software, not part of the
block, which computes its defined function for any table content (00_scope.md R7, 93 U5). -/

namespace Sys2Proof.Machine

/-- The Collatz function (00_scope.md R15). -/
def collatz (n : Nat) : Nat := if n % 2 = 1 then 3 * n + 1 else n / 2

/-- The fused step T (00_scope.md R16). -/
def fusedT (v : Nat) : Nat := if v % 2 = 1 then (3 * v + 1) / 2 else v / 2

/-- `n` rounds of the loop of 48_host_tables.md R191 from value `v` and multiplier `m`: (multiplier, value). -/
def stepRounds : (n v m : Nat) → Nat × Nat
  | 0, v, m => (m, v)
  | n + 1, v, m => if v % 2 = 1 then stepRounds n ((3 * v + 1) / 2) (3 * m) else stepRounds n (v / 2) m

/-- Entry `i` of the reference step table for `k`, as (mult, off) (48_host_tables.md R191, and R192 for `k = 0`). -/
def refStepEntry (k i : Nat) : Nat × Nat :=
  if k = 0 then (if i % 2 = 0 then (1, 0) else (3, 1)) else stepRounds k i 1

/-- The reference step table for `k` (48_host_tables.md R191, R192). -/
def refStepTable (k : Nat) : List (Nat × Nat) := (List.range (2 ^ kidx k)).map (refStepEntry k)

/-- The step count a host builds for (48_host_tables.md R195). -/
def hostStepCount (k : Nat) : Nat := min k Config.kMax

/-- The word of a step-table entry (30_encoding.md R97, 20_memory.md R64). -/
def stepEntryWord (e : Nat × Nat) : Word := BitVec.ofNat 64 (e.2 * 2 ^ 32 + e.1)

/-- ST holds the reference table for the current K (70_reset_and_hazards.md R255). -/
def RefStepTableLoaded (s : State) : Prop :=
  ∀ j < 2 ^ kidx s.k.toNat,
    (stMult s j).toNat = (refStepEntry s.k.toNat j).1 ∧ (stOff s j).toNat = (refStepEntry s.k.toNat j).2

/-- Whether some value among the next `n` fused steps of `v` is less than `i` (48_host_tables.md R200). -/
def dropsBelow (i : Nat) : (n v : Nat) → Bool
  | 0, _ => false
  | n + 1, v => if fusedT v < i then true else dropsBelow i n (fusedT v)

/-- The resolution test: candidate `i` is resolved at horizon `s` (48_host_tables.md R200, D42). -/
def resolved (s i : Nat) : Bool := dropsBelow i s i

/-- `T^n(16q + r)` as an affine form `(a, b)` for `a*q + b`, `1 ≤ n ≤ 4` (95_test_vectors.md section 5). -/
def fourStepForm (r n : Nat) : Nat × Nat := ((stepRounds n r 1).1 * 2 ^ (4 - n), (stepRounds n r 1).2)

/-- The smaller of two forms, in both coefficients where they compare (95_test_vectors.md section 5). -/
def lowerForm (f g : Nat × Nat) : Nat × Nat := if f.1 ≤ g.1 ∧ f.2 ≤ g.2 then f else g

/-- The lowest of the four intermediate forms of residue `r` (95_test_vectors.md section 5). -/
def lowestForm (r : Nat) : Nat × Nat :=
  lowerForm (fourStepForm r 1) (lowerForm (fourStepForm r 2) (lowerForm (fourStepForm r 3) (fourStepForm r 4)))

/-- The accelerated test of the source (48_host_tables.md R200): `blocks` blocks of four fused steps by the forms modulo
16, then `rest` steps one at a time. -/
def dropsBelowFast (i rest : Nat) : (blocks v : Nat) → Bool
  | 0, v => dropsBelow i rest v
  | blocks + 1, v =>
    if (lowestForm (v % 16)).1 * (v / 16) + (lowestForm (v % 16)).2 < i then true
    else dropsBelowFast i rest blocks ((fourStepForm (v % 16) 4).1 * (v / 16) + (fourStepForm (v % 16) 4).2)

/-- The accelerated resolution test, which must give the verdict of `resolved` (48_host_tables.md R200). -/
def resolvedFast (s i : Nat) : Bool := dropsBelowFast i (s % 4) (s / 4) i

/-- log2 of the length of a skip table for horizon `s` (48_host_tables.md R196). -/
def skipLog2 (s : Nat) : Nat := if s < 20 then 0 else s - 2

/-- The largest skip entry, 252 (48_host_tables.md R197; unaudited, 00_scope.md R5). -/
def maxSkip : Nat := 252

/-- The trivial skip table (48_host_tables.md R198). -/
def trivialSkipTable : List Nat := [4]

/-- What every entry of a conforming skip table satisfies (48_host_tables.md R197). -/
abbrev ConformingEntry (e : Nat) : Prop := e % 4 = 0 ∧ 4 ≤ e ∧ e ≤ maxSkip

/-- A conforming skip table of `2^l` entries for horizon `s` (48_host_tables.md R197, D41): conforming entries, and the
skip from no candidate `c`, whichever slot it uses (R196), jumps past an unresolved candidate `d` (log 18). -/
def ConformingSkipTable (s l : Nat) (entry : Nat → Nat) : Prop :=
  (∀ j < 2 ^ l, ConformingEntry (entry j)) ∧
  ∀ c d, c % 4 = 3 → d % 4 = 3 → c < d → d < c + entry (c / 4 % 2 ^ l) → resolved s d = true

/-- The check of a skip table at the first candidate of each slot alone, `4j + 3`. It is the conformance of R197 where
the table covers the horizon's `2^s` values, `l + 2 ≥ s`; a shorter table needs the check at every candidate. -/
def FirstCandidatesConform (s l : Nat) (entry : Nat → Nat) : Prop :=
  ∀ j < 2 ^ l, ConformingEntry (entry j) ∧
    ∀ d, d % 4 = 3 → 4 * j + 3 < d → d < 4 * j + 3 + entry j → resolved s d = true

/-- Every entry of the active part of SK is a conforming entry: the first clause of 48_host_tables.md R197. -/
def SkipEntriesConform (s : State) : Prop := ∀ j < 2 ^ s.l.toNat, ConformingEntry (skEntry s j).toNat

/-- The active part of SK is a conforming skip table for `horizon` (48_host_tables.md R197, 70_reset_and_hazards.md
R255). -/
def SkipTableLoaded (horizon : Nat) (s : State) : Prop :=
  ConformingSkipTable horizon s.l.toNat fun j => (skEntry s j).toNat

/-- A table a host may load: every entry in [4, 252] (93 U6, treatment: refuse). -/
def loadableSkipTable (t : List Nat) : Bool := t.all fun e => decide (4 ≤ e ∧ e ≤ maxSkip)

/-- The entry of a skip table at a cursor (48_host_tables.md R202). -/
def skipTableAt (t : List Nat) (i : Nat) : Nat := t.getD (i / 4 % t.length) 0

/-- The target of one iteration of the construction (48_host_tables.md R201, D43). -/
def buildTarget (s i low : Nat) : Option Nat :=
  if resolved s i = false ∧ i ≤ low + maxSkip then some i
  else if low + maxSkip ≤ i then some (low + maxSkip)
  else none

/-- The entries from `low/4` up to `target/4`, each the distance from its slot's value to the target (R201). -/
def fillSlots (low target : Nat) : List Nat :=
  (List.range (target / 4 - low / 4)).map fun t => target - (4 * (low / 4 + t) + 3)

/-- The construction loop (48_host_tables.md R200 to R202) from cursor `i`, with the table filled so far in reverse. -/
def buildLoop (s : Nat) (small : List Nat) : (fuel i low : Nat) → List Nat → List Nat
  | 0, _, _, filled => filled
  | fuel + 1, i, low, filled =>
    if 2 ^ s ≤ i then filled
    else
      match buildTarget s i low with
      | some t => buildLoop s small fuel (i + skipTableAt small i) t ((fillSlots low t).reverse ++ filled)
      | none => buildLoop s small fuel (i + skipTableAt small i) low filled

/-- The table of horizon `s ≥ 20` built with a smaller table, its final entry patched (48_host_tables.md R202). -/
def buildWith (s : Nat) (small : List Nat) : List Nat :=
  let filled := (buildLoop s small (2 ^ s) 3 3 []).reverse
  filled ++ [filled.getD 0 0 + 4]

/-- The constructed skip table of horizon `s` (48_host_tables.md R196, R199): the smaller horizon is 18 below 30 and 27
from 30 on, and horizon 18 is the trivial table. -/
def buildSkipTable (s : Nat) : List Nat :=
  if s < 20 then trivialSkipTable
  else if s < 30 then buildWith s trivialSkipTable
  else buildWith s (buildWith 27 trivialSkipTable)

/-- The unresolved candidates below `2^s`, rising (48_host_tables.md R203 item 1). -/
def unresolvedCandidates (s : Nat) : List Nat :=
  ((List.range (2 ^ (s - 2))).map fun j => 4 * j + 3).filter fun c => !resolved s c

/-- The targets after `low`: the given ones, with forced targets between so that none is more than 252 above the one
before it (48_host_tables.md R203 item 2). -/
def withForcedTargets (low : Nat) : List Nat → List Nat
  | [] => []
  | u :: us =>
    ((List.range ((u - low - 1) / maxSkip)).map fun n => low + maxSkip * (n + 1)) ++ u :: withForcedTargets u us

/-- The targets of horizon `s` (48_host_tables.md R203). -/
def skipTargets (s : Nat) : List Nat := withForcedTargets 3 (unresolvedCandidates s)

/-- Entry `j` of the skip table of horizon `s ≥ 20` by its declarative definition (48_host_tables.md R203 item 3). -/
def refSkipEntry (s j : Nat) : Nat :=
  ((skipTargets s).find? fun t => decide (4 * j + 3 < t)).getD (2 ^ s + (skipTargets s).headD 0) - (4 * j + 3)

end Sys2Proof.Machine
end

