-- ==== Sys2Proof/Machine/HostProgram.lean ====
section
/-! DEFINITION. The assembler of 30_encoding.md R96 to R98 and the boot order of 70_reset_and_hazards.md R253: how a host
program becomes the pending operations of `State.host`. -/

namespace Sys2Proof.Machine

/-- One line of a host program: the basic operations of R96 and the pseudo-operations of R97. -/
inductive Line where
  | wr (addr value : Nat)
  | rd (addr : Nat)
  | poll
  | cmd (i : Instr)
  | ldacc (v : Nat)
  | add (v : Nat)
  | mul (v : Nat)
  | ldst (j m o : Nat)
  | ldsk (j e : Nat)
  | verify (first last : Nat)
  deriving DecidableEq, Repr

/-- `wr` to a byte address. -/
def opWrite (addr value : Nat) : HostOp := .access (.write (BitVec.ofNat 32 addr) 8 (BitVec.ofNat 64 value))

/-- `rd` of a byte address. -/
def opRead (addr : Nat) : HostOp := .access (.read (BitVec.ofNat 32 addr) 8)

/-- `cmd` of a command (R97): a write of its word to CMD. -/
def opCommand (i : Instr) : HostOp := .access (.write Reg.cmd.addr 8 (encode i))

/-- The operations when the operand ranges hold; an assembler refuses a line whose operands are out of range (R97). -/
def inRange (ok : Bool) (ops : List HostOp) : Option (List HostOp) := if ok then some ops else none

/-- The expansion of a line for an instance with parameter `n` (R96, R97). -/
def Line.expand (n : Fin 29) : Line → Option (List HostOp)
  | .wr a v => inRange (decide (a < 2 ^ 32 ∧ v < 2 ^ 64)) [opWrite a v]
  | .rd a => inRange (decide (a < 2 ^ 32)) [opRead a]
  | .poll => some [.poll]
  | .cmd i => some [opCommand i]
  | .ldacc v => inRange (decide (v < 2 ^ 128))
      [opWrite Reg.accLo.offset (v % 2 ^ 64), opWrite Reg.accHi.offset (v / 2 ^ 64)]
  | .add v => inRange (decide (v < 2 ^ 64)) [opWrite Reg.opnd.offset v, opCommand .add]
  | .mul v => inRange (decide (v < 2 ^ 32)) [opWrite Reg.opnd.offset v, opCommand .mul]
  | .ldst j m o => inRange (decide (j < 2 ^ 20 ∧ m < 2 ^ 32 ∧ o < 2 ^ 32)) [opWrite (stAddr j) (o * 2 ^ 32 + m)]
  | .ldsk j e => inRange (decide (j < 2 ^ n.val ∧ e < 2 ^ 8)) [opWrite (skAddr j) e]
  | .verify first last => inRange (decide (first < 2 ^ 64 ∧ last < 2 ^ 64))
      [opWrite Reg.start.offset first, opWrite Reg.endReg.offset last, opCommand .verify, .poll,
       opRead Reg.result.offset]

/-- A program: its lines' expansions in order, refused when a line is (R96, R97). -/
def assemble (n : Fin 29) : List Line → Option (List HostOp)
  | [] => some []
  | line :: lines =>
    match line.expand n, assemble n lines with
    | some ops, some rest => some (ops ++ rest)
    | _, _ => none

/-- One row of a program's encoding: direction, address and, for a write, the data (R98). -/
structure BusRow where
  write : Bool
  addr : Addr
  data : Option Word
  deriving DecidableEq, Repr

/-- The row of an operation: a `poll` is a read of STATUS, repeated as it runs; the reset input is no bus access (R98). -/
def HostOp.rows : HostOp → List BusRow
  | .access (.read a _) => [⟨false, a, none⟩]
  | .access (.write a _ w) => [⟨true, a, some w⟩]
  | .poll => [⟨false, Reg.status.addr, none⟩]
  | .reset => []

/-- The encoding of a host program (R98). -/
def encodeProgram (ops : List HostOp) : List BusRow := ops.flatMap HostOp.rows

/-- The boot order of 70_reset_and_hazards.md R253 for a step table and a skip table, one range, and the reads of
RESULT and STATUS. -/
def bootProgram (k l : Nat) (st : List (Nat × Nat)) (sk : List Nat) (first last : Nat) : List HostOp :=
  [opWrite Reg.kcfg.offset k]
    ++ st.mapIdx (fun j e => opWrite (stAddr j) (e.2 * 2 ^ 32 + e.1))
    ++ [opWrite Reg.skcfg.offset l]
    ++ sk.mapIdx (fun j e => opWrite (skAddr j) e)
    ++ [opWrite Reg.tvalid.offset 3, opWrite Reg.start.offset first, opWrite Reg.endReg.offset last,
        opCommand .verify, .poll, opRead Reg.result.offset, opRead Reg.status.offset]

end Sys2Proof.Machine
end

