-- ==== Sys2Proof/Machine/SourceProcedures.lean ====
section
/-! DEFINITION. The procedures the source describes for the datapath operations (40_datapath.md R123, R129, R133: "An
implementation may compute" a command so) and VERIFY as one function (41_sequencer.md R165). The commands themselves are
`execAdd`, `execMul`, `execRtz` and `execVerify` with the sequencer; that these procedures agree with them is a matter
for statements. -/

namespace Sys2Proof.Machine

/-- The value of two words (00_scope.md R13). -/
def wideOf (hi lo : Nat) : Wide := BitVec.ofNat 128 (hi * 2 ^ 64 + lo)

/-- The source's `checked_add` (40_datapath.md R123): the operand goes to the low word, a carry increments the high word,
and an increment that overflows the high word is the overflow. -/
def sourceAdd (hi lo rhs : Word) : Option Wide :=
  if lo.toNat + rhs.toNat < 2 ^ 64 then some (wideOf hi.toNat (lo.toNat + rhs.toNat))
  else if hi.toNat + 1 < 2 ^ 64 then some (wideOf (hi.toNat + 1) (lo.toNat + rhs.toNat - 2 ^ 64))
  else none

/-- The carry of a low-word product into the high word by 32-bit halves (40_datapath.md R129). -/
def halfCarry (lo : Word) (r : Half) : Nat :=
  ((lo.extractLsb' 32 32).toNat * r.toNat + ((lo.extractLsb' 0 32).toNat * r.toNat) / 2 ^ 32) / 2 ^ 32

/-- The source's `checked_mul` (40_datapath.md R129). -/
def sourceMul (hi lo : Word) (r : Half) : Option Wide :=
  if hi.toNat * r.toNat ≥ 2 ^ 64 then none
  else if lo.toNat * r.toNat < 2 ^ 64 then some (wideOf (hi.toNat * r.toNat) (lo.toNat * r.toNat))
  else if hi.toNat * r.toNat + halfCarry lo r ≥ 2 ^ 64 then none
  else some (wideOf (hi.toNat * r.toNat + halfCarry lo r) (lo.toNat * r.toNat % 2 ^ 64))

/-- The shift of a pair of words by the trailing zeros of its low word (40_datapath.md R133), with `base` counted before. -/
def sourceShift (hi lo : Word) (base : Nat) : Wide × Nat :=
  let t := ctz 64 lo.toNat
  if t = 64 then (0#128, base + t)
  else if t = 0 then (hi ++ lo, base + t)
  else ((hi >>> t) ++ ((lo >>> t) ||| (BitVec.ofNat 64 (hi.toNat % 2 ^ t) <<< (64 - t))), base + t)

/-- The source's `remove_trailing_zeros` with its count (40_datapath.md R133): a zero low word takes the high word first. -/
def sourceRtz (hi lo : Word) : Wide × Nat :=
  if lo = 0#64 then sourceShift 0#64 hi 64 else sourceShift hi lo 0

/-- `while v >= cursor` of 41_sequencer.md R165 within `fuel` tests: `some true` when the value dropped below the cursor,
`some false` on overflow, `none` when neither happened yet. -/
def trajectoryDrops (s : State) (cursor : Word) : (fuel : Nat) → Wide → Option Bool
  | 0, _ => none
  | fuel + 1, v =>
    if v.toNat < cursor.toNat then some true
    else
      match fusedStep s v with
      | none => some false
      | some r => trajectoryDrops s cursor fuel r.1

/-- The `repeat` of 41_sequencer.md R165 within `fuel` skips: `some none` on a wrap below `prev`, `some (some n)` when
the chain ended at the next candidate `n`, `none` when neither happened yet. -/
def skipChain (s : State) (prev : Word) : (fuel : Nat) → Word → Option (Option Word)
  | 0, _ => none
  | fuel + 1, c =>
    if (skipTarget s c).toNat < prev.toNat then some none
    else if forbiddenResidue (skipTarget s c) then skipChain s prev fuel (skipTarget s c)
    else some (some (skipTarget s c))

/-- The outer loop of 41_sequencer.md R165 from a cursor, at most `fuel` candidates with at most `budget` inner tests
and skips each. -/
def verifyFrom (s : State) (budget : Nat) : (fuel : Nat) → Word → Option (Word × ResultKind)
  | 0, _ => none
  | fuel + 1, c =>
    if c.toNat > s.endReg.toNat then some (s.endReg, .complete)
    else
      match trajectoryDrops s c budget (c.setWidth 128) with
      | none => none
      | some false => some (c - 1#64, .overflow)
      | some true =>
        match skipChain s c budget c with
        | none => none
        | some none => some (c, .wrap)
        | some (some n) => verifyFrom s budget fuel n

/-- VERIFY as one function of the state at acceptance (41_sequencer.md R165): the pair (RESULT, RKIND), or none when it
has not ended within `fuel`. VERIFY need not end (R166), so no fuel bounds it in general. -/
def verifyFunction (fuel : Nat) (s : State) : Option (Word × ResultKind) :=
  if s.stValid && s.skValid then verifyFrom s fuel fuel (firstCandidate s.startReg) else some (0#64, .empty)

end Sys2Proof.Machine
end

