-- ==== Sys2Proof/Safety.lean ====
section
/-! DEFINITION. What counts as a sound state and an ended run, in the terms the statements use. -/

namespace Sys2Proof.Machine

/-- `n` steps of the sequencer. -/
def seqSteps : (n : Nat) → State → State
  | 0, s => s
  | n + 1, s => seqSteps n (seqStep s)

/-- `n` steps of the machine, stopping at the first fault or refusal. -/
def runSteps : (n : Nat) → State → Host.Outcome State Fault Refusal
  | 0, s => .next s
  | n + 1, s =>
    match step s with
    | .next t => runSteps n t
    | .fault r => .fault r
    | .refused r => .refused r

/-- A run has ended: nothing is pending at the host and PHASE = IDLE (70_reset_and_hazards.md R264). -/
def State.ended (s : State) : Bool := decide (s.host = []) && decide (s.phase = .idle)

/-- A byte address that holds table storage: any byte of the step-table window, or the low byte of an implemented
skip-table word (20_memory.md R62, R63, R65). -/
def tableStorage (n : Fin 29) (a : Nat) : Bool :=
  decide (Config.stBase ≤ a ∧ a < Config.stBase + 8 * Config.stDepth)
    || decide (Config.skBase ≤ a ∧ a < Config.skBase + 8 * 2 ^ n.val ∧ (a - Config.skBase) % 8 = 0)

/-- What the rules make true of every reachable state. -/
structure State.Inv (s : State) : Prop where
  /-- K is in 0..20 (10_state.md R30). -/
  kClamped : s.k.toNat ≤ Config.kMax
  /-- L is in 0..SKIP_LOG2_MAX (10_state.md R31, 30_encoding.md R93). -/
  lClamped : s.l.toNat ≤ s.skipLog2Max.val
  /-- TZCNT is in 0..128 (10_state.md R29). -/
  tzcntBounded : s.tzcnt.toNat ≤ 128
  /-- The table memory has its canonical form. -/
  memWf : Memory.wf s.mem = true
  /-- Only table storage is listed. -/
  memStored : ∀ a, (Memory.lookup s.mem a).isSome = true → tableStorage s.skipLog2Max a = true
  /-- A step-table entry is written whole (20_memory.md R69). -/
  stepWhole : ∀ j < Config.stDepth, ∀ i < 8,
    (Memory.lookup s.mem (stAddr j + i)).isSome = (Memory.lookup s.mem (stAddr j)).isSome
  /-- A running VERIFY was accepted with both tables present, no error and no overflow, and RKIND NONE (41_sequencer.md
  R155 to R157), and its cursor is at least 3 (R161). -/
  running : s.phase ≠ .idle → s.stValid = true ∧ s.skValid = true ∧ s.ovf = false ∧ s.err = .none ∧
    s.rkind = .none ∧ 3 ≤ s.cursor.toNat
  /-- In INNER the candidate lies in the range (41_sequencer.md R159). -/
  innerRange : s.phase = .inner → s.cursor.toNat ≤ s.endReg.toNat
  /-- In SKIP the resolved candidate lies in the range and the cursor has not gone below it (41_sequencer.md R163). -/
  skipRange : s.phase = .skip → 3 ≤ s.prev.toNat ∧ s.prev.toNat ≤ s.endReg.toNat ∧ s.prev.toNat ≤ s.cursor.toNat

/-- The two states agree on every table byte, written or free. -/
def SameTables (s t : State) : Prop := ∀ a, tableByte t a = tableByte s a

/-- The two states agree on all the block's state of 10_state.md R42 (and on the instance's parameter): they may differ
only in what the model adds for the host interface. -/
structure SameBlock (s t : State) : Prop where
  accLo : t.accLo = s.accLo
  accHi : t.accHi = s.accHi
  opnd : t.opnd = s.opnd
  tzcnt : t.tzcnt = s.tzcnt
  k : t.k = s.k
  l : t.l = s.l
  stValid : t.stValid = s.stValid
  skValid : t.skValid = s.skValid
  startReg : t.startReg = s.startReg
  endReg : t.endReg = s.endReg
  result : t.result = s.result
  cursor : t.cursor = s.cursor
  ovf : t.ovf = s.ovf
  err : t.err = s.err
  rkind : t.rkind = s.rkind
  phase : t.phase = s.phase
  prev : t.prev = s.prev
  mem : t.mem = s.mem
  skipLog2Max : t.skipLog2Max = s.skipLog2Max
  epoch : t.epoch = s.epoch

/-- The model's own fields of the host interface are the same. -/
structure SamePort (s t : State) : Prop where
  host : t.host = s.host
  sched : t.sched = s.sched
  response : t.response = s.response
  draws : t.draws = s.draws

/-- What no command writes: the operands, the configuration, the tables and the host interface (40_datapath.md R120). -/
structure CommandKeeps (s t : State) : Prop where
  opnd : t.opnd = s.opnd
  k : t.k = s.k
  l : t.l = s.l
  stValid : t.stValid = s.stValid
  skValid : t.skValid = s.skValid
  startReg : t.startReg = s.startReg
  endReg : t.endReg = s.endReg
  prev : t.prev = s.prev
  mem : t.mem = s.mem
  skipLog2Max : t.skipLog2Max = s.skipLog2Max
  epoch : t.epoch = s.epoch
  draws : t.draws = s.draws
  host : t.host = s.host
  sched : t.sched = s.sched
  response : t.response = s.response

/-- What no sequencer step writes. -/
structure SequencerKeeps (s t : State) : Prop where
  opnd : t.opnd = s.opnd
  k : t.k = s.k
  l : t.l = s.l
  stValid : t.stValid = s.stValid
  skValid : t.skValid = s.skValid
  startReg : t.startReg = s.startReg
  endReg : t.endReg = s.endReg
  err : t.err = s.err
  mem : t.mem = s.mem
  skipLog2Max : t.skipLog2Max = s.skipLog2Max
  epoch : t.epoch = s.epoch
  draws : t.draws = s.draws
  host : t.host = s.host
  sched : t.sched = s.sched
  response : t.response = s.response

/-- It is the host's turn and its next operation is `op`; `s'` is `s` with the operation taken (00_scope.md R17, log 1 and
2). In an idle block every turn is the host's; in a busy one `sched` says so. -/
def HostMoves (s : State) (op : HostOp) (s' : State) : Prop :=
  ∃ rest, s.host = op :: rest ∧
    ((s.phase = .idle ∧ s' = { s with host := rest }) ∨
     (s.phase ≠ .idle ∧ ∃ left, s.sched = .host :: left ∧ s' = { s with host := rest, sched := left }))

/-- It is the sequencer's turn; `s'` is `s` with the turn taken from the interleaving (41_sequencer.md R158, log 2). -/
def SequencerMoves (s s' : State) : Prop :=
  s.phase ≠ .idle ∧
    ((s.host = [] ∧ s' = s) ∨ (s.host ≠ [] ∧ s.sched = [] ∧ s' = s) ∨
     (s.host ≠ [] ∧ ∃ left, s.sched = .sequencer :: left ∧ s' = { s with sched := left }))

end Sys2Proof.Machine
end

