-- ==== Sys2Proof/Certificates/Slice0/Obligations.lean ====
section
/-! DEFINITION. The statements for the provers. Each docstring names the rule of spec/ it formalises; a statement that
rests on a choice of the model says so and names the log entry. -/

open Sys2Proof Sys2Proof.Machine

/-! ## Encoding -/

/-- 30_encoding.md R90 to R92: the encoder and the decoder agree on every command, no other word decodes to a command, and
the well-formed words are exactly those that decode. -/
def Obligations.DecodeAndEncodeAgree : Prop :=
  (∀ i : Instr, i.wellFormed = true → decode (encode i) = .ok i) ∧
  (∀ (w : Word) (i : Instr), decode w = .ok i → w = encode i) ∧
  (∀ w : Word, wellFormedWord w = true ↔ ∃ i, decode w = .ok i)

/-- 30_encoding.md R91, R92: a few words written out from the opcode map. -/
def Obligations.WrittenWordsDecode : Prop :=
  decode 0x0000000000000000#64 = .ok .nop ∧ decode 0x0000000000000002#64 = .ok .mul ∧
  decode 0x0000000000000005#64 = .ok .verify ∧ decode 0x0000000000000101#64 = .error .reservedBits ∧
  decode 0x0000000000000006#64 = .error .opcode

/-- 30_encoding.md R94: a word with a reserved bit set, or with an opcode from 0x06 to 0xFF, is no command, and writing it
to CMD of an idle block sets ERR to ILLEGAL (code 1), clears OVF and changes nothing else. -/
def Obligations.IllegalWordsSignalIllegal : Prop :=
  ∀ w : Word, (w.toNat / 2 ^ 8 ≠ 0 ∨ 0x06 ≤ w.toNat % 2 ^ 8) →
    (∃ e, decode w = .error e) ∧ ErrCode.illegal.code = 1#4 ∧
    ∀ s s', s.phase = .idle → HostMoves s (.access (.write Reg.cmd.addr 8 w)) s' →
      step s = .next { s' with response := .writeDone, ovf := false, err := .illegal }

/-- 30_encoding.md R91, 40_datapath.md R120, 70_reset_and_hazards.md R263: where the host's next access writes a word to
CMD of an idle block, and the word decodes to a command, the step is that command's meaning, whole, on the state with the
access taken and answered. -/
def Obligations.StepRunsTheDecodedCommand : Prop :=
  ∀ (s s' : State) (w : Word) (i : Instr), s.phase = .idle →
    HostMoves s (.access (.write Reg.cmd.addr 8 w)) s' → i.wellFormed = true → decode w = .ok i →
    step s = exec i { s' with response := .writeDone }

/-! ## NOP, ADD, MUL, RTZ -/

/-- 40_datapath.md R121: NOP is the word 0; it clears OVF and ERR and changes nothing else. -/
def Obligations.NopClearsOvfAndErr : Prop :=
  encode .nop = 0x0000000000000000#64 ∧
  ∀ s, ∃ t, exec .nop s = .next t ∧ t = { s with ovf := false, err := .none } ∧ SameTables s t

/-- 40_datapath.md R123, R124: the exact sum is written when it fits 128 bits; else OVF is set and ACC keeps its value. -/
def Obligations.AddIsExactOrOverflows : Prop :=
  ∀ s,
    (s.accHi.toNat * 2 ^ 64 + s.accLo.toNat + s.opnd.toNat < 2 ^ 128 →
      ∃ t, exec .add s = .next t ∧
        t.accHi.toNat * 2 ^ 64 + t.accLo.toNat = s.accHi.toNat * 2 ^ 64 + s.accLo.toNat + s.opnd.toNat ∧
        t = { s with accLo := t.accLo, accHi := t.accHi, ovf := false, err := .none } ∧ SameTables s t) ∧
    (2 ^ 128 ≤ s.accHi.toNat * 2 ^ 64 + s.accLo.toNat + s.opnd.toNat →
      ∃ t, exec .add s = .next t ∧ t = { s with ovf := true, err := .none } ∧ SameTables s t)

/-- 40_datapath.md R125: the corner cases of ADD by words. -/
def Obligations.AddCornerCases : Prop :=
  ∀ s,
    (s.opnd = 0#64 → exec .add s = .next { s with ovf := false, err := .none }) ∧
    (2 ^ 64 ≤ s.accLo.toNat + s.opnd.toNat → s.accHi.toNat < 2 ^ 64 - 1 →
      ∃ t, exec .add s = .next t ∧ t.accHi.toNat = s.accHi.toNat + 1 ∧
        t.accLo.toNat + 2 ^ 64 = s.accLo.toNat + s.opnd.toNat ∧
        t = { s with accLo := t.accLo, accHi := t.accHi, ovf := false, err := .none }) ∧
    (2 ^ 64 ≤ s.accLo.toNat + s.opnd.toNat → s.accHi.toNat = 2 ^ 64 - 1 →
      exec .add s = .next { s with ovf := true, err := .none }) ∧
    (s.accHi.toNat * 2 ^ 64 + s.accLo.toNat ≤ 2 ^ 128 - 2 ^ 64 →
      ∃ t, exec .add s = .next t ∧ t.ovf = false) ∧
    (2 ^ 128 - 2 ^ 64 < s.accHi.toNat * 2 ^ 64 + s.accLo.toNat →
      ∃ o : Word, exec .add { s with opnd := o } = .next { s with opnd := o, ovf := true, err := .none })

/-- 40_datapath.md R123: the source's addition by words gives the sum and the overflow verdict of ADD. -/
def Obligations.SourceAddAgrees : Prop :=
  ∀ hi lo rhs : Word, sourceAdd hi lo rhs = checkedAdd (hi ++ lo) rhs

/-- 40_datapath.md R127, R128: an operand of 2^32 or more is ERR(OPERAND); else the exact product is written when it fits
128 bits, and OVF is set with ACC kept when it does not. -/
def Obligations.MulIsExactOrOverflowsOrRefuses : Prop :=
  ErrCode.operand.code = 2#4 ∧ ∀ s,
    (s.opnd.extractLsb' 32 32 ≠ 0#32 →
      ∃ t, exec .mul s = .next t ∧ t = { s with ovf := false, err := .operand } ∧ SameTables s t) ∧
    (s.opnd.extractLsb' 32 32 = 0#32 →
      (s.accHi.toNat * 2 ^ 64 + s.accLo.toNat) * (s.opnd.extractLsb' 0 32).toNat < 2 ^ 128 →
      ∃ t, exec .mul s = .next t ∧
        t.accHi.toNat * 2 ^ 64 + t.accLo.toNat =
          (s.accHi.toNat * 2 ^ 64 + s.accLo.toNat) * (s.opnd.extractLsb' 0 32).toNat ∧
        t = { s with accLo := t.accLo, accHi := t.accHi, ovf := false, err := .none } ∧ SameTables s t) ∧
    (s.opnd.extractLsb' 32 32 = 0#32 →
      2 ^ 128 ≤ (s.accHi.toNat * 2 ^ 64 + s.accLo.toNat) * (s.opnd.extractLsb' 0 32).toNat →
      ∃ t, exec .mul s = .next t ∧ t = { s with ovf := true, err := .none } ∧ SameTables s t)

/-- 40_datapath.md R130: the corner cases of MUL. -/
def Obligations.MulCornerCases : Prop :=
  ∀ s,
    (s.opnd = 0#64 →
      exec .mul s = .next { s with accLo := 0#64, accHi := 0#64, ovf := false, err := .none }) ∧
    (s.opnd = 1#64 → exec .mul s = .next { s with ovf := false, err := .none }) ∧
    (s.accHi = 0#64 → s.accLo = 0#64 → s.opnd.toNat < 2 ^ 32 →
      exec .mul s = .next { s with ovf := false, err := .none }) ∧
    (s.opnd.toNat < 2 ^ 32 → 2 ^ 64 ≤ s.accHi.toNat * s.opnd.toNat →
      exec .mul s = .next { s with ovf := true, err := .none }) ∧
    (s.opnd.toNat < 2 ^ 32 → s.accHi.toNat * s.opnd.toNat < 2 ^ 64 →
      2 ^ 64 ≤ s.accHi.toNat * s.opnd.toNat + s.accLo.toNat * s.opnd.toNat / 2 ^ 64 →
      exec .mul s = .next { s with ovf := true, err := .none }) ∧
    (s.accHi = 0x5555555555555555#64 → s.accLo = 0xFFFFFFFFFFFFFFFF#64 → s.opnd = 3#64 →
      exec .mul s = .next { s with ovf := true, err := .none }) ∧
    (s.accHi = 0x7FFFFFFFFFFFFFFF#64 → s.accLo = 0xFFFFFFFFFFFFFFFF#64 → s.opnd = 2#64 →
      exec .mul s = .next { s with
        accHi := 0xFFFFFFFFFFFFFFFF#64, accLo := 0xFFFFFFFFFFFFFFFE#64, ovf := false, err := .none }) ∧
    (s.accHi = 0#64 → s.accLo = 0xFFFFFFFFFFFFFFFF#64 → s.opnd = 3#64 →
      exec .mul s = .next { s with
        accHi := 2#64, accLo := 0xFFFFFFFFFFFFFFFD#64, ovf := false, err := .none }) ∧
    (s.opnd = 0x100000000#64 → exec .mul s = .next { s with ovf := false, err := .operand })

/-- 40_datapath.md R129: the source's multiplication by 32-bit halves gives the result and the overflow verdict of MUL for
every accumulator and every 32-bit operand, and its carry is the high part of the low word's product. -/
def Obligations.SourceMulAgrees : Prop :=
  ∀ (hi lo : Word) (r : Half),
    sourceMul hi lo r = checkedMul (hi ++ lo) r ∧ halfCarry lo r = lo.toNat * r.toNat / 2 ^ 64

/-- 40_datapath.md R131, R132: RTZ is the word 3; it writes ACC with all its trailing zeros removed and their count, 0 and
128 for zero. -/
def Obligations.RtzRemovesAllTrailingZeros : Prop :=
  encode .rtz = 0x0000000000000003#64 ∧ ∀ s, ∃ t, exec .rtz s = .next t ∧
    (s.accHi.toNat * 2 ^ 64 + s.accLo.toNat = 0 →
      t.accHi.toNat * 2 ^ 64 + t.accLo.toNat = 0 ∧ t.tzcnt.toNat = 128) ∧
    (s.accHi.toNat * 2 ^ 64 + s.accLo.toNat ≠ 0 →
      (t.accHi.toNat * 2 ^ 64 + t.accLo.toNat) % 2 = 1 ∧ t.tzcnt.toNat < 128 ∧
      s.accHi.toNat * 2 ^ 64 + s.accLo.toNat =
        (t.accHi.toNat * 2 ^ 64 + t.accLo.toNat) * 2 ^ t.tzcnt.toNat) ∧
    t = { s with accLo := t.accLo, accHi := t.accHi, tzcnt := t.tzcnt, ovf := false, err := .none } ∧
    SameTables s t

/-- 40_datapath.md R134: the corner cases of RTZ. -/
def Obligations.RtzCornerCases : Prop :=
  ∀ s,
    (s.accLo.toNat % 2 = 1 → exec .rtz s = .next { s with tzcnt := 0#8, ovf := false, err := .none }) ∧
    (∀ n < 128, s.accHi.toNat * 2 ^ 64 + s.accLo.toNat = 2 ^ n →
      exec .rtz s = .next { s with
        accHi := 0#64, accLo := 1#64, tzcnt := BitVec.ofNat 8 n, ovf := false, err := .none }) ∧
    (s.accLo = 0#64 → s.accHi ≠ 0#64 →
      ∃ t c, exec .rtz s = .next t ∧ c < 64 ∧ t.tzcnt.toNat = 64 + c ∧ t.accHi = 0#64 ∧
        t.accLo.toNat % 2 = 1 ∧ s.accHi.toNat = t.accLo.toNat * 2 ^ c) ∧
    (s.accHi = 0#64 → s.accLo = 0#64 →
      exec .rtz s = .next { s with tzcnt := 128#8, ovf := false, err := .none })

/-- 40_datapath.md R133: the source's word-swapping procedure removes and counts the same zeros as RTZ. -/
def Obligations.SourceRtzAgrees : Prop :=
  ∀ hi lo : Word, sourceRtz hi lo = ((rtz (hi ++ lo)).1, (rtz (hi ++ lo)).2.toNat)

/-- 40_datapath.md R135: after one RTZ, ACC is odd or zero, and a second RTZ leaves ACC unchanged and counts 0 or 128. -/
def Obligations.RtzIsIdempotentOnTheValue : Prop :=
  ∀ s t, exec .rtz s = .next t →
    (t.accLo.toNat % 2 = 1 ∨ (t.accHi = 0#64 ∧ t.accLo = 0#64)) ∧
    ∃ u, exec .rtz t = .next u ∧ u.accHi = t.accHi ∧ u.accLo = t.accLo ∧
      (t.accLo.toNat % 2 = 1 → u.tzcnt = 0#8) ∧ (t.accLo.toNat % 2 = 0 → u.tzcnt = 128#8)

/-! ## STEP and VERIFY -/

/-- 41_sequencer.md R150 to R152: STEP is the word 4; without a step table it is ERR(NOTABLE); with one it looks up the entry at ACC modulo
the table length 2^max(K, 1), shifts ACC right by K, multiplies, adds and removes zeros; a product or sum of 2^128 or more
sets OVF and changes neither ACC nor TZCNT. -/
def Obligations.StepIsTheFusedStep : Prop :=
  encode .step = 0x0000000000000004#64 ∧ ∀ s,
    (s.stValid = false →
      ∃ t, exec .step s = .next t ∧ t = { s with ovf := false, err := .noTable } ∧ SameTables s t) ∧
    (∀ v i m o p q : Nat, s.stValid = true →
      v = s.accHi.toNat * 2 ^ 64 + s.accLo.toNat → i = v % 2 ^ max s.k.toNat 1 →
      m = (stMult s i).toNat → o = (stOff s i).toNat → p = v / 2 ^ s.k.toNat * m → q = p + o →
      (2 ^ 128 ≤ p ∨ 2 ^ 128 ≤ q →
        ∃ t, exec .step s = .next t ∧ t = { s with ovf := true, err := .none } ∧ SameTables s t) ∧
      (p < 2 ^ 128 → q < 2 ^ 128 →
        ∃ t, exec .step s = .next t ∧
          (q = 0 → t.accHi.toNat * 2 ^ 64 + t.accLo.toNat = 0 ∧ t.tzcnt.toNat = 128) ∧
          (q ≠ 0 → (t.accHi.toNat * 2 ^ 64 + t.accLo.toNat) % 2 = 1 ∧ t.tzcnt.toNat < 128 ∧
            q = (t.accHi.toNat * 2 ^ 64 + t.accLo.toNat) * 2 ^ t.tzcnt.toNat) ∧
          t = { s with accLo := t.accLo, accHi := t.accHi, tzcnt := t.tzcnt, ovf := false, err := .none } ∧
          SameTables s t))

/-- 41_sequencer.md R153: the corner cases of STEP with a step table present, for any table content. -/
def Obligations.StepCornerCases : Prop :=
  ∀ s, s.stValid = true →
    (s.acc.toNat < 2 ^ s.k.toNat →
      exec .step s = .next (commandDone
        (s.setRtz (rtz ((stOff s (s.acc.toNat % 2 ^ max s.k.toNat 1)).setWidth 128))) false)) ∧
    (s.acc = 0#128 → stMult s 0 = 1#32 → stOff s 0 = 0#32 →
      exec .step s = .next { s with tzcnt := 128#8, ovf := false, err := .none }) ∧
    (s.k = 0#5 → s.acc.toNat % 2 = 0 → stMult s 0 = 1#32 → stOff s 0 = 0#32 → exec .step s = exec .rtz s) ∧
    (stMult s (s.acc.toNat % 2 ^ max s.k.toNat 1) = 0#32 →
      exec .step s = .next (commandDone
        (s.setRtz (rtz ((stOff s (s.acc.toNat % 2 ^ max s.k.toNat 1)).setWidth 128))) false)) ∧
    (2 ^ 128 ≤ s.acc.toNat / 2 ^ s.k.toNat * (stMult s (s.acc.toNat % 2 ^ max s.k.toNat 1)).toNat →
      exec .step s = .next { s with ovf := true, err := .none } ∧ 2 ^ 96 < s.acc.toNat / 2 ^ s.k.toNat) ∧
    (s.k = 3#5 → s.acc = 27#128 → stMult s 3 = 9#32 → stOff s 3 = 4#32 →
      exec .step s = .next { s with accHi := 0#64, accLo := 31#64, tzcnt := 0#8, ovf := false, err := .none })

/-- 41_sequencer.md R157: with both tables present VERIFY is accepted: CURSOR is START rounded up to the next value
≡ 3 mod 4, RKIND is NONE, and the sequencer starts in OUTER; OVF and ERR are cleared. -/
def Obligations.VerifyIsAccepted : Prop :=
  ResultKind.none.code = 0#3 ∧ ∀ s, s.stValid = true → s.skValid = true →
    ∃ t, exec .verify s = .next t ∧ s.startReg.toNat ≤ t.cursor.toNat ∧ t.cursor.toNat < s.startReg.toNat + 4 ∧
      t.cursor.toNat % 4 = 3 ∧
      t = { s with cursor := t.cursor, rkind := .none, phase := .outer, ovf := false, err := .none } ∧
      SameTables s t

/-- 41_sequencer.md R156: with a table absent VERIFY completes inside the write with RESULT 0 and RKIND EMPTY (code 4). -/
def Obligations.VerifyWithoutTablesIsEmpty : Prop :=
  ∀ s, s.phase = .idle → (s.stValid = false ∨ s.skValid = false) →
    ∃ t, exec .verify s = .next t ∧ t.phase = .idle ∧ ResultKind.empty.code = 4#3 ∧
      t = { s with result := 0#64, rkind := .empty, ovf := false, err := .none } ∧ SameTables s t

/-- 40_datapath.md R120: no short command changes RKIND, RESULT, CURSOR, PREV, PHASE, OPND, START, END, K, L, TVALID, a
table, or anything at the host interface; whatever it does, it ends in a next state. -/
def Obligations.ShortCommandsKeepTheRest : Prop :=
  ∀ (i : Instr) (s : State), i ≠ .verify →
    ∃ t, exec i s = .next t ∧
      t = { s with accLo := t.accLo, accHi := t.accHi, tzcnt := t.tzcnt, ovf := t.ovf, err := t.err } ∧
      SameTables s t

/-- 60_exceptions.md R222, R225, R228: a short command that signals an error or overflows leaves everything but OVF and ERR
as it was, and never reports both. -/
def Obligations.ErrorsAndOverflowsArePrecise : Prop :=
  ∀ (i : Instr) (s t : State), i ≠ .verify → exec i s = .next t → (t.ovf = true ∨ t.err ≠ .none) →
    t = { s with ovf := t.ovf, err := t.err } ∧ ¬(t.ovf = true ∧ t.err ≠ .none)

/-! ## The register window -/

/-- 10_state.md R26, 60_exceptions.md R222, R226: the STATUS word as a number: BUSY, OVF, ERR and RKIND in their bits and
every other bit 0. -/
def Obligations.StatusWordLayout : Prop :=
  ∀ s, (readRegister s .status).toNat =
    (if s.phase = .idle then 0 else 1) + (if s.ovf = true then 2 else 0) +
    (match s.err with | .none => 0x00 | .illegal => 0x10 | .operand => 0x20 | .noTable => 0x30) +
    (match s.rkind with | .none => 0x000 | .complete => 0x100 | .overflow => 0x200 | .wrap => 0x300 | .empty => 0x400)

/-- 10_state.md R27, R28, R33: a write to OPND, ACC_LO, ACC_HI, START or END of an idle block replaces the whole word and
nothing else. -/
def Obligations.PlainRegisterWrites : Prop :=
  ∀ (s s' : State) (w : Word), s.phase = .idle →
    (HostMoves s (.access (.write 0x010#32 8 w)) s' → step s = .next { s' with response := .writeDone, opnd := w }) ∧
    (HostMoves s (.access (.write 0x018#32 8 w)) s' → step s = .next { s' with response := .writeDone, accLo := w }) ∧
    (HostMoves s (.access (.write 0x020#32 8 w)) s' → step s = .next { s' with response := .writeDone, accHi := w }) ∧
    (HostMoves s (.access (.write 0x048#32 8 w)) s' →
      step s = .next { s' with response := .writeDone, startReg := w }) ∧
    (HostMoves s (.access (.write 0x050#32 8 w)) s' → step s = .next { s' with response := .writeDone, endReg := w })

/-- 10_state.md R27, R28, R33, 20_memory.md R72: a read of OPND, ACC_LO, ACC_HI, START or END right after a write to it
returns the word written. -/
def Obligations.PlainRegistersReadBack : Prop :=
  ∀ (s : State) (a : Addr) (w : Word) (rest : List HostOp), s.phase = .idle →
    (a = 0x010#32 ∨ a = 0x018#32 ∨ a = 0x020#32 ∨ a = 0x048#32 ∨ a = 0x050#32) →
    s.host = .access (.write a 8 w) :: .access (.read a 8) :: rest →
    ∃ t u, step s = .next t ∧ step t = .next u ∧ u.response = .readData w ∧ u.host = rest ∧ SameBlock t u

/-- 10_state.md R28 to R35: in an idle block a read of ACC_LO, ACC_HI, TZCNT, KCFG, SKCFG, RESULT or CURSOR returns the
field, zero-extended, and touches nothing of the block. -/
def Obligations.RegistersReadTheirFields : Prop :=
  ∀ (s s' : State) (a : Addr) (n : Nat), s.phase = .idle → HostMoves s (.access (.read a 8)) s' →
    ((a = 0x018#32 ∧ n = s.accLo.toNat) ∨ (a = 0x020#32 ∧ n = s.accHi.toNat) ∨ (a = 0x028#32 ∧ n = s.tzcnt.toNat) ∨
      (a = 0x030#32 ∧ n = s.k.toNat) ∨ (a = 0x038#32 ∧ n = s.l.toNat) ∨ (a = 0x058#32 ∧ n = s.result.toNat) ∨
      (a = 0x060#32 ∧ n = s.cursor.toNat)) →
    ∃ w : Word, step s = .next { s' with response := .readData w } ∧ w.toNat = n

/-- 10_state.md R30: a write of `w` to KCFG stores min(w, 20), the whole 64-bit word compared, and a read returns it. -/
def Obligations.KcfgClampsAtTwenty : Prop :=
  ∀ (s s' : State) (w : Word), s.phase = .idle → HostMoves s (.access (.write 0x030#32 8 w)) s' →
    ∃ t, step s = .next t ∧ t.k.toNat = min w.toNat 20 ∧ (readRegister t .kcfg).toNat = min w.toNat 20 ∧
      t = { s' with response := .writeDone, k := t.k } ∧ SameTables s t

/-- 10_state.md R31: a write of `w` to SKCFG stores min(w, SKIP_LOG2_MAX), the whole 64-bit word compared, and a read
returns it. -/
def Obligations.SkcfgClampsAtTheParameter : Prop :=
  ∀ (s s' : State) (w : Word), s.phase = .idle → HostMoves s (.access (.write 0x038#32 8 w)) s' →
    ∃ t, step s = .next t ∧ t.l.toNat = min w.toNat s.skipLog2Max.val ∧
      (readRegister t .skcfg).toNat = min w.toNat s.skipLog2Max.val ∧
      t = { s' with response := .writeDone, l := t.l } ∧ SameTables s t

/-- 10_state.md R32: a write of `w` to TVALID stores w[0] and w[1], and a read returns those two bits alone. -/
def Obligations.TvalidHoldsTwoBits : Prop :=
  ∀ (s s' : State) (w : Word), s.phase = .idle → HostMoves s (.access (.write 0x040#32 8 w)) s' →
    ∃ t, step s = .next t ∧ (t.stValid = true ↔ w.toNat % 2 = 1) ∧ (t.skValid = true ↔ w.toNat / 2 % 2 = 1) ∧
      (readRegister t .tvalid).toNat = w.toNat % 4 ∧
      t = { s' with response := .writeDone, stValid := t.stValid, skValid := t.skValid } ∧ SameTables s t

/-- 10_state.md R24: a write to STATUS, TZCNT, RESULT or CURSOR changes nothing, in any phase. -/
def Obligations.ReadOnlyRegistersIgnoreWrites : Prop :=
  ∀ (s s' : State) (a : Addr) (w : Word),
    (a = 0x008#32 ∨ a = 0x028#32 ∨ a = 0x058#32 ∨ a = 0x060#32) →
    HostMoves s (.access (.write a 8 w)) s' → step s = .next { s' with response := .writeDone }

/-- 10_state.md R25, R36, 20_memory.md R63, R66: reserved register offsets, addresses in none of the three windows and
skip-window words from entry 2^SKIP_LOG2_MAX on read 0 and ignore writes; CMD reads 0. -/
def Obligations.UnusedLocationsReadZeroAndIgnoreWrites : Prop :=
  ∀ (s s' : State), s.phase = .idle →
    (∀ a : Addr, a.toNat % 8 = 0 →
      ((0x068 ≤ a.toNat ∧ a.toNat ≤ 0xFF8) ∨ (0x1000 ≤ a.toNat ∧ a.toNat < 0x01000000) ∨
        (0x01800000 ≤ a.toNat ∧ a.toNat < 0x80000000) ∨ 0x80000000 + 8 * 2 ^ s.skipLog2Max.val ≤ a.toNat) →
      (HostMoves s (.access (.read a 8)) s' → step s = .next { s' with response := .readData 0#64 }) ∧
      (∀ w, HostMoves s (.access (.write a 8 w)) s' → step s = .next { s' with response := .writeDone })) ∧
    (HostMoves s (.access (.read 0x000#32 8)) s' → step s = .next { s' with response := .readData 0#64 })

/-! ## The table windows -/

/-- 20_memory.md R62, R64: a write of `w` to step-table entry `j` of an idle block stores mult = w[31:0] and
off = w[63:32] and leaves every byte outside the entry alone; a read returns {off, mult}. -/
def Obligations.StepTableWritesAndReads : Prop :=
  ∀ (s s' : State) (j : Nat) (a : Addr), s.phase = .idle → j < 2 ^ 20 → a.toNat = 0x01000000 + 8 * j →
    (∀ w : Word, HostMoves s (.access (.write a 8 w)) s' →
      ∃ t, step s = .next t ∧ stMult t j = w.extractLsb' 0 32 ∧ stOff t j = w.extractLsb' 32 32 ∧
        (∀ b, (b < stAddr j ∨ stAddr j + 8 ≤ b) → tableByte t b = tableByte s b) ∧
        t = { s' with response := .writeDone, mem := t.mem }) ∧
    (HostMoves s (.access (.read a 8)) s' →
      step s = .next { s' with response := .readData (stOff s j ++ stMult s j) })

/-- 20_memory.md R63, R65: a write of `w` to skip-table entry `j` < 2^SKIP_LOG2_MAX of an idle block stores w[7:0] and
leaves every other byte alone; a read returns the entry zero-extended. -/
def Obligations.SkipTableWritesAndReads : Prop :=
  ∀ (s s' : State) (j : Nat) (a : Addr), s.phase = .idle → j < 2 ^ s.skipLog2Max.val →
    a.toNat = 0x80000000 + 8 * j →
    (∀ w : Word, HostMoves s (.access (.write a 8 w)) s' →
      ∃ t, step s = .next t ∧ (skEntry t j).toNat = w.toNat % 2 ^ 8 ∧
        (∀ b, b ≠ skAddr j → tableByte t b = tableByte s b) ∧
        t = { s' with response := .writeDone, mem := t.mem }) ∧
    (HostMoves s (.access (.read a 8)) s' →
      step s = .next { s' with response := .readData ((skEntry s j).setWidth 64) })

/-! ## Bus rules -/

/-- 20_memory.md R67: an access that is not 8 bytes wide or not at a multiple of 8 is a bus error. That it is one in a
busy block too, where R70 drops writes without an error, is the model's reading, log 7. Nothing else ever stops a step
(60_exceptions.md R220). -/
def Obligations.OnlyBadAccessesStopAStep : Prop :=
  (∀ (s s' : State) (a : Access), HostMoves s (.access a) s' → (a.size ≠ 8 ∨ a.addr.toNat % 8 ≠ 0) →
    step s = .fault .busError) ∧
  (∀ (s : State) (f : Fault), step s = .fault f →
    ∃ a s', HostMoves s (.access a) s' ∧ (a.size ≠ 8 ∨ a.addr.toNat % 8 ≠ 0)) ∧
  (∀ (s : State) (r : Refusal), step s ≠ .refused r)

/-- 20_memory.md R70: while a VERIFY runs every host write, to CMD, a register or a table, is dropped without an error, and
no operation of the host but a reset touches the block. -/
def Obligations.RunningVerifyDropsWrites : Prop :=
  (∀ (s s' : State) (a : Addr) (w : Word), s.phase ≠ .idle → a.toNat % 8 = 0 →
    HostMoves s (.access (.write a 8 w)) s' → step s = .next { s' with response := .writeDone }) ∧
  (∀ (s s' t : State) (op : HostOp), s.phase ≠ .idle → HostMoves s op s' → op ≠ .reset → step s = .next t →
    SameBlock s t)

/-- 20_memory.md R71: while a VERIFY runs, a read of STATUS returns the current STATUS and a read of any other location
returns some word, whichever it is; a read of an idle block returns what the rules give. No read touches the block (R69).
The word read is the free value of log 6. -/
def Obligations.ReadsWhileBusyAndIdle : Prop :=
  ∀ (s s' : State) (a : Addr), a.toNat % 8 = 0 → HostMoves s (.access (.read a 8)) s' →
    (a = 0x008#32 → step s = .next { s' with response := .readData (statusWord s) }) ∧
    (s.phase ≠ .idle → a ≠ 0x008#32 →
      ∃ v, step s = .next { s' with response := .readData v, draws := s.draws + 1 }) ∧
    (s.phase = .idle → step s = .next { s' with response := .readData (readLocation s (locate a)) })

/-- 30_encoding.md R96: `poll` reads STATUS, and is done exactly when the value read has bit 0 = 0. That a poll is one
pending operation is the model's choice, log 10. -/
def Obligations.PollWaitsForIdle : Prop :=
  ∀ (s s' : State), HostMoves s .poll s' →
    ∃ t, step s = .next t ∧ t.response = .readData (statusWord s) ∧ SameBlock s t ∧
      ((statusWord s).toNat % 2 = 0 → t.host = s'.host) ∧ ((statusWord s).toNat % 2 = 1 → t.host = s.host)

/-! ## Reset -/

/-- 70_reset_and_hazards.md R250: a reset in any phase, a running VERIFY included, puts every register to its reset value
and forgets every table byte: each reads as the free value of the new reset. What stays is the model's choice, log 8. -/
def Obligations.ResetAbandonsEverything : Prop :=
  ∀ (s s' : State), HostMoves s .reset s' →
    ∃ t, step s = .next t ∧
      t.accLo = 0#64 ∧ t.accHi = 0#64 ∧ t.opnd = 0#64 ∧ t.tzcnt = 0#8 ∧ t.k = 0#5 ∧ t.l = 0#5 ∧
      t.stValid = false ∧ t.skValid = false ∧ t.startReg = 0#64 ∧ t.endReg = 0#64 ∧ t.result = 0#64 ∧
      t.cursor = 0#64 ∧ statusWord t = 0#64 ∧ t.phase = .idle ∧ t.prev = 0#64 ∧
      (∀ a, tableByte t a = Config.tableByte t.epoch a) ∧ t.epoch = s.epoch + 1 ∧
      t.skipLog2Max = s.skipLog2Max ∧ t.host = s'.host ∧ t.sched = s'.sched ∧ t.draws = s.draws

/-- 10_state.md R43: every register is 0 after reset, PHASE is IDLE, no table entry holds a written byte and both tables
count as absent, so that a VERIFY issued before the host sets both TVALID bits completes with RESULT 0 and RKIND EMPTY. -/
def Obligations.ResetValues : Prop :=
  ∀ n : Fin 29, ∃ s, s = State.resetWith n ∧
    s.accLo = 0#64 ∧ s.accHi = 0#64 ∧ s.opnd = 0#64 ∧ s.tzcnt = 0#8 ∧ s.k = 0#5 ∧ s.l = 0#5 ∧
    s.stValid = false ∧ s.skValid = false ∧ s.startReg = 0#64 ∧ s.endReg = 0#64 ∧ s.result = 0#64 ∧
    s.cursor = 0#64 ∧ s.ovf = false ∧ s.err = .none ∧ s.rkind = .none ∧ s.phase = .idle ∧ s.prev = 0#64 ∧
    (∀ a, Memory.lookup s.mem a = none) ∧
    ∀ (first last : Word) (st sk : Bool), (st && sk) = false →
      ∃ t, exec .verify { s with startReg := first, endReg := last, stValid := st, skValid := sk } = .next t ∧
        t.result = 0#64 ∧ t.rkind = .empty ∧ t.phase = .idle

/-- The invariant of Safety.lean holds after reset, whatever the instance's parameter. -/
def Obligations.ResetIsSound : Prop := State.reset.Inv ∧ ∀ n : Fin 29, (State.resetWith n).Inv

/-- Every step of the machine keeps the invariant of Safety.lean: K ≤ 20, L ≤ SKIP_LOG2_MAX, TZCNT ≤ 128, the table
memory's canonical form and extent, and the ranges of CURSOR and PREV in a running VERIFY (10_state.md R29 to R31,
41_sequencer.md R161, R163). -/
def Obligations.StepKeepsTheInvariant : Prop := ∀ s t, s.Inv → step s = .next t → t.Inv

/-! ## The sequencer -/

/-- 41_sequencer.md R158: on the sequencer's turn a step is one transition, a busy block always has an agent to move, and
an idle block has no transition. -/
def Obligations.SequencerTurnIsOneTransition : Prop :=
  (∀ s s', SequencerMoves s s' → step s = .next (seqStep s')) ∧
  (∀ s, s.phase ≠ .idle → (∃ s', SequencerMoves s s') ∨ ∃ op s', HostMoves s op s') ∧
  (∀ s, s.phase = .idle → seqStep s = s)

/-- 41_sequencer.md R159: the OUTER transition. -/
def Obligations.OuterTransition : Prop :=
  ResultKind.complete.code = 1#3 ∧ ∀ s s', SequencerMoves s s' → s.phase = .outer →
    (s.endReg.toNat < s.cursor.toNat →
      step s = .next { s' with result := s.endReg, rkind := .complete, phase := .idle }) ∧
    (s.cursor.toNat ≤ s.endReg.toNat →
      step s = .next { s' with accHi := 0#64, accLo := s.cursor, phase := .inner })

/-- 41_sequencer.md R160, R161: the INNER transition: it leaves the trajectory when the high word is 0 and the low word is
below CURSOR; else it takes one fused step or ends the run with the candidate before the failing one. -/
def Obligations.InnerTransition : Prop :=
  ResultKind.overflow.code = 2#3 ∧ ∀ s s', SequencerMoves s s' → s.phase = .inner →
    (s.accHi = 0#64 → s.accLo.toNat < s.cursor.toNat →
      step s = .next { s' with prev := s.cursor, phase := .skip }) ∧
    ((s.accHi ≠ 0#64 ∨ s.cursor.toNat ≤ s.accLo.toNat) →
      (∀ v c, fusedStep s s.acc = some (v, c) →
        step s = .next { s' with
          accHi := v.extractLsb' 64 64, accLo := v.extractLsb' 0 64, tzcnt := c }) ∧
      (fusedStep s s.acc = none → 3 ≤ s.cursor.toNat →
        ∃ t, step s = .next t ∧ t.result.toNat + 1 = s.cursor.toNat ∧
          t = { s' with result := t.result, rkind := .overflow, ovf := true, phase := .idle }))

/-- 41_sequencer.md R162 to R164: the SKIP transition: the entry at (CURSOR >> 2) mod 2^L is added in 64 bits; below PREV
the run ends in WRAP, else the new cursor is skipped again when its residue mod 9 is 2, 4, 5 or 8. -/
def Obligations.SkipTransition : Prop :=
  ResultKind.wrap.code = 3#3 ∧ ∀ (s s' : State) (e n : Nat), SequencerMoves s s' → s.phase = .skip →
    e = (skEntry s (s.cursor.toNat / 4 % 2 ^ s.l.toNat)).toNat → n = (s.cursor.toNat + e) % 2 ^ 64 →
    (n < s.prev.toNat → step s = .next { s' with result := s.prev, rkind := .wrap, phase := .idle }) ∧
    (s.prev.toNat ≤ n → (n % 9 = 2 ∨ n % 9 = 4 ∨ n % 9 = 5 ∨ n % 9 = 8) →
      step s = .next { s' with cursor := BitVec.ofNat 64 n, phase := .skip }) ∧
    (s.prev.toNat ≤ n → ¬(n % 9 = 2 ∨ n % 9 = 4 ∨ n % 9 = 5 ∨ n % 9 = 8) →
      step s = .next { s' with cursor := BitVec.ofNat 64 n, phase := .outer })

/-- 41_sequencer.md R165: the function of the rule and the run of the sequencer from acceptance give the same pair
(RESULT, RKIND), and one ends exactly when the other does. -/
def Obligations.VerifyIsTheFunctionOfItsRule : Prop :=
  ∀ s t, s.phase = .idle → exec .verify s = .next t →
    (∀ fuel v k, verifyFunction fuel s = some (v, k) →
      ∃ n, (seqSteps n t).phase = .idle ∧ (seqSteps n t).result = v ∧ (seqSteps n t).rkind = k) ∧
    (∀ n, (seqSteps n t).phase = .idle →
      ∃ fuel, verifyFunction fuel s = some ((seqSteps n t).result, (seqSteps n t).rkind))

/-- 00_scope.md R17, 20_memory.md R72, 60_exceptions.md R236: whatever the host does between the sequencer's steps of a
running VERIFY, short of a reset, and however the two interleave, the block goes through the states of the sequencer
alone, up to and including the first idle one. The interleaving and the host's operations are the lists of State that
log 2 and log 1 choose. -/
def Obligations.InterleavingDoesNotMatter : Prop :=
  ∀ (s t : State) (n : Nat), (∀ op ∈ s.host, op ≠ .reset) →
    (∀ m < n, ∃ u, runSteps m s = .next u ∧ u.phase ≠ .idle) →
    runSteps n s = .next t →
    ∃ m ≤ n, SameBlock (seqSteps m s) t

/-- 41_sequencer.md R168 item 1: a run that ends never reports more than END. The premise is the invariant of
Safety.lean. -/
def Obligations.ResultNeverExceedsEnd : Prop :=
  ∀ s, s.Inv → s.phase ≠ .idle → (seqStep s).phase = .idle → (seqStep s).result.toNat ≤ s.endReg.toNat

/-- 41_sequencer.md R167: what holds when a run ends: ERR is NONE, OVF is 1 exactly for OVERFLOW, ACC, TZCNT, CURSOR and
PREV keep their values, and RESULT is END, CURSOR - 1 or PREV by the kind. The premise is the invariant of Safety.lean. -/
def Obligations.EndOfARun : Prop :=
  ∀ s t, s.Inv → s.phase ≠ .idle → t = seqStep s → t.phase = .idle →
    t.err = .none ∧ (t.ovf = true ↔ t.rkind = .overflow) ∧
    t = { s with result := t.result, rkind := t.rkind, ovf := t.ovf, phase := .idle } ∧
    ((t.rkind = .complete ∧ t.result = s.endReg ∧ s.endReg.toNat < s.cursor.toNat) ∨
     (t.rkind = .overflow ∧ t.result.toNat + 1 = s.cursor.toNat ∧ fusedStep s s.acc = none) ∨
     (t.rkind = .wrap ∧ t.result = s.prev))

/-- 41_sequencer.md R166: VERIFY need not end: at a fixed point of the fused step not below CURSOR the run stays in INNER
for ever, and so does the rule's example, K = 1 with every entry (2^32 - 1, 2^32 - 1) at CURSOR = 3. -/
def Obligations.FixedPointsRunForEver : Prop :=
  (∀ (s : State) (c : Byte), s.phase = .inner → s.cursor.toNat ≤ s.acc.toNat → fusedStep s s.acc = some (s.acc, c) →
    ∀ n, (seqSteps n s).phase = .inner) ∧
  (∀ s : State, s.phase = .inner → s.k = 1#5 → s.cursor = 3#64 → s.acc = 3#128 →
    (∀ j < 2, stMult s j = 0xFFFFFFFF#32 ∧ stOff s j = 0xFFFFFFFF#32) → ∀ n, (seqSteps n s).phase = .inner)

/-- 41_sequencer.md R166: a skip entry 0 read at an allowed residue verifies the same candidate again. -/
def Obligations.ZeroSkipVerifiesAgain : Prop :=
  ∀ s : State, s.phase = .skip → s.prev = s.cursor → s.cursor.toNat ≤ s.endReg.toNat →
    skipAmount s s.cursor = 0#8 → forbiddenResidue s.cursor = false →
    seqSteps 2 s = { s with accHi := 0#64, accLo := s.cursor, phase := .inner }

/-- 48_host_tables.md R197: with conforming skip entries every cursor stays ≡ 3 mod 4, and a skip step that goes on
advances it by a conforming amount. -/
def Obligations.ConformingSkipsKeepCandidates : Prop :=
  ∀ s : State, SkipEntriesConform s → s.cursor.toNat % 4 = 3 →
    (seqStep s).cursor.toNat % 4 = 3 ∧
    (s.phase = .skip → (seqStep s).phase ≠ .idle →
      ∃ d, ConformingEntry d ∧ (seqStep s).cursor = s.cursor + BitVec.ofNat 64 d)

/-! ## Host-side tables -/

/-- 48_host_tables.md R193: with the reference step table loaded, a fused step that does not overflow removes the zeros of
T applied K times for K ≥ 1; for K = 0 its value is that of one Collatz step with its zeros removed. That K = 0 is stated
for the value and not for the count is the reading of log 18. -/
def Obligations.ReferenceTableIteratesT : Prop :=
  ∀ (s : State) (v r : Wide) (c : Byte), RefStepTableLoaded s → fusedStep s v = some (r, c) →
    (1 ≤ s.k.toNat → ∃ q : Wide, q.toNat = fusedT^[s.k.toNat] v.toNat ∧ (r, c) = rtz q) ∧
    (s.k.toNat = 0 → ∃ q : Wide, q.toNat = collatz v.toNat ∧ r = (rtz q).1)

/-- 48_host_tables.md R194, for K ≥ 1: the reference entries are at most 3^K and 3^K - 1, the last offset is 3^K - 1, and
for K ≤ 20 all fit 32 bits. -/
def Obligations.ReferenceEntriesFit : Prop :=
  ∀ k, 1 ≤ k →
    (∀ i < 2 ^ k, (refStepEntry k i).1 ≤ 3 ^ k ∧ (refStepEntry k i).2 ≤ 3 ^ k - 1 ∧
      (k ≤ Config.kMax → (refStepEntry k i).1 < 2 ^ 32 ∧ (refStepEntry k i).2 < 2 ^ 32)) ∧
    (refStepEntry k (2 ^ k - 1)).2 = 3 ^ k - 1

/-- 48_host_tables.md R200: the accelerated resolution test, four fused steps at a time by the forms modulo 16, gives the
verdict of the reference test for every horizon and candidate. -/
def Obligations.AcceleratedTestAgrees : Prop := ∀ s i : Nat, resolvedFast s i = resolved s i

/-- 48_host_tables.md R198: the trivial skip table is conforming at every horizon. What "never jumps past an unresolved
candidate" means is log 18. -/
def Obligations.TrivialSkipTableConforms : Prop :=
  ∀ h : Nat, ConformingSkipTable h 0 fun j => trivialSkipTable.getD j 0

/-! ## The end of a run -/

/-- 60_exceptions.md R237, 70_reset_and_hazards.md R264: with nothing pending at the host and PHASE = IDLE a step changes
nothing. That such a step answers the same state is the model's choice, log 3. -/
def Obligations.EndedRunStays : Prop := ∀ s : State, s.ended = true → step s = .next s

/-! ## Conforming skip tables -/

/-- 48_host_tables.md R197, R198: at every horizon the trivial table is the only conforming table of one entry, so that
the one-entry table 8 of 95_test_vectors.md V-VER-7 is not conforming. What "never jumps past an unresolved candidate"
means is log 18. -/
def Obligations.OnlyTheTrivialOneEntryTableConforms : Prop :=
  ∀ h e : Nat, ConformingSkipTable h 0 (fun _ => e) ↔ e = 4

/-- 48_host_tables.md R196, R197: for a table that covers the horizon's `2^h` values the check at each slot's first
candidate is the whole conformance. The definition of conformance is the reading of log 18. -/
def Obligations.FirstCandidatesSufficeForFullTables : Prop :=
  ∀ (h l : Nat) (entry : Nat → Nat), h ≤ l + 2 →
    (FirstCandidatesConform h l entry ↔ ConformingSkipTable h l entry)

/-- 48_host_tables.md R197, D41: with a conforming table loaded, every candidate strictly between the cursor before a
skip step and the cursor after it is resolved. The definition of conformance is the reading of log 18. -/
def Obligations.SkipStepsPassResolvedCandidatesOnly : Prop :=
  ∀ (s : State) (h d : Nat), SkipTableLoaded h s → s.phase = .skip → s.cursor.toNat % 4 = 3 →
    d % 4 = 3 → s.cursor.toNat < d → d < (seqStep s).cursor.toNat → resolved h d = true
end

