-- ==== Sys2Proof/Laws/State.lean ====
section
/-! SUPPORT. One lemma per field per named update of the state, each true by `rfl`. -/

namespace Sys2Proof.Machine

/-! Fields after `ACC <- v`. -/

@[simp] theorem State.setAcc_accLo (s : State) (v : Wide) : (s.setAcc v).accLo = v.extractLsb' 0 64 := rfl
@[simp] theorem State.setAcc_accHi (s : State) (v : Wide) : (s.setAcc v).accHi = v.extractLsb' 64 64 := rfl
@[simp] theorem State.setAcc_opnd (s : State) (v : Wide) : (s.setAcc v).opnd = s.opnd := rfl
@[simp] theorem State.setAcc_tzcnt (s : State) (v : Wide) : (s.setAcc v).tzcnt = s.tzcnt := rfl
@[simp] theorem State.setAcc_k (s : State) (v : Wide) : (s.setAcc v).k = s.k := rfl
@[simp] theorem State.setAcc_l (s : State) (v : Wide) : (s.setAcc v).l = s.l := rfl
@[simp] theorem State.setAcc_stValid (s : State) (v : Wide) : (s.setAcc v).stValid = s.stValid := rfl
@[simp] theorem State.setAcc_skValid (s : State) (v : Wide) : (s.setAcc v).skValid = s.skValid := rfl
@[simp] theorem State.setAcc_startReg (s : State) (v : Wide) : (s.setAcc v).startReg = s.startReg := rfl
@[simp] theorem State.setAcc_endReg (s : State) (v : Wide) : (s.setAcc v).endReg = s.endReg := rfl
@[simp] theorem State.setAcc_result (s : State) (v : Wide) : (s.setAcc v).result = s.result := rfl
@[simp] theorem State.setAcc_cursor (s : State) (v : Wide) : (s.setAcc v).cursor = s.cursor := rfl
@[simp] theorem State.setAcc_ovf (s : State) (v : Wide) : (s.setAcc v).ovf = s.ovf := rfl
@[simp] theorem State.setAcc_err (s : State) (v : Wide) : (s.setAcc v).err = s.err := rfl
@[simp] theorem State.setAcc_rkind (s : State) (v : Wide) : (s.setAcc v).rkind = s.rkind := rfl
@[simp] theorem State.setAcc_phase (s : State) (v : Wide) : (s.setAcc v).phase = s.phase := rfl
@[simp] theorem State.setAcc_prev (s : State) (v : Wide) : (s.setAcc v).prev = s.prev := rfl
@[simp] theorem State.setAcc_mem (s : State) (v : Wide) : (s.setAcc v).mem = s.mem := rfl
@[simp] theorem State.setAcc_skipLog2Max (s : State) (v : Wide) : (s.setAcc v).skipLog2Max = s.skipLog2Max := rfl
@[simp] theorem State.setAcc_epoch (s : State) (v : Wide) : (s.setAcc v).epoch = s.epoch := rfl
@[simp] theorem State.setAcc_draws (s : State) (v : Wide) : (s.setAcc v).draws = s.draws := rfl
@[simp] theorem State.setAcc_host (s : State) (v : Wide) : (s.setAcc v).host = s.host := rfl
@[simp] theorem State.setAcc_sched (s : State) (v : Wide) : (s.setAcc v).sched = s.sched := rfl
@[simp] theorem State.setAcc_response (s : State) (v : Wide) : (s.setAcc v).response = s.response := rfl

/-! Fields after `TZCNT <- c`. -/

@[simp] theorem State.setTzcnt_accLo (s : State) (c : Byte) : (s.setTzcnt c).accLo = s.accLo := rfl
@[simp] theorem State.setTzcnt_accHi (s : State) (c : Byte) : (s.setTzcnt c).accHi = s.accHi := rfl
@[simp] theorem State.setTzcnt_opnd (s : State) (c : Byte) : (s.setTzcnt c).opnd = s.opnd := rfl
@[simp] theorem State.setTzcnt_tzcnt (s : State) (c : Byte) : (s.setTzcnt c).tzcnt = c := rfl
@[simp] theorem State.setTzcnt_k (s : State) (c : Byte) : (s.setTzcnt c).k = s.k := rfl
@[simp] theorem State.setTzcnt_l (s : State) (c : Byte) : (s.setTzcnt c).l = s.l := rfl
@[simp] theorem State.setTzcnt_stValid (s : State) (c : Byte) : (s.setTzcnt c).stValid = s.stValid := rfl
@[simp] theorem State.setTzcnt_skValid (s : State) (c : Byte) : (s.setTzcnt c).skValid = s.skValid := rfl
@[simp] theorem State.setTzcnt_startReg (s : State) (c : Byte) : (s.setTzcnt c).startReg = s.startReg := rfl
@[simp] theorem State.setTzcnt_endReg (s : State) (c : Byte) : (s.setTzcnt c).endReg = s.endReg := rfl
@[simp] theorem State.setTzcnt_result (s : State) (c : Byte) : (s.setTzcnt c).result = s.result := rfl
@[simp] theorem State.setTzcnt_cursor (s : State) (c : Byte) : (s.setTzcnt c).cursor = s.cursor := rfl
@[simp] theorem State.setTzcnt_ovf (s : State) (c : Byte) : (s.setTzcnt c).ovf = s.ovf := rfl
@[simp] theorem State.setTzcnt_err (s : State) (c : Byte) : (s.setTzcnt c).err = s.err := rfl
@[simp] theorem State.setTzcnt_rkind (s : State) (c : Byte) : (s.setTzcnt c).rkind = s.rkind := rfl
@[simp] theorem State.setTzcnt_phase (s : State) (c : Byte) : (s.setTzcnt c).phase = s.phase := rfl
@[simp] theorem State.setTzcnt_prev (s : State) (c : Byte) : (s.setTzcnt c).prev = s.prev := rfl
@[simp] theorem State.setTzcnt_mem (s : State) (c : Byte) : (s.setTzcnt c).mem = s.mem := rfl
@[simp] theorem State.setTzcnt_skipLog2Max (s : State) (c : Byte) : (s.setTzcnt c).skipLog2Max = s.skipLog2Max := rfl
@[simp] theorem State.setTzcnt_epoch (s : State) (c : Byte) : (s.setTzcnt c).epoch = s.epoch := rfl
@[simp] theorem State.setTzcnt_draws (s : State) (c : Byte) : (s.setTzcnt c).draws = s.draws := rfl
@[simp] theorem State.setTzcnt_host (s : State) (c : Byte) : (s.setTzcnt c).host = s.host := rfl
@[simp] theorem State.setTzcnt_sched (s : State) (c : Byte) : (s.setTzcnt c).sched = s.sched := rfl
@[simp] theorem State.setTzcnt_response (s : State) (c : Byte) : (s.setTzcnt c).response = s.response := rfl

/-! Fields after the destinations of a trailing-zero removal. -/

@[simp] theorem State.setRtz_accLo (s : State) (r : Wide × Byte) : (s.setRtz r).accLo = r.1.extractLsb' 0 64 := rfl
@[simp] theorem State.setRtz_accHi (s : State) (r : Wide × Byte) : (s.setRtz r).accHi = r.1.extractLsb' 64 64 := rfl
@[simp] theorem State.setRtz_opnd (s : State) (r : Wide × Byte) : (s.setRtz r).opnd = s.opnd := rfl
@[simp] theorem State.setRtz_tzcnt (s : State) (r : Wide × Byte) : (s.setRtz r).tzcnt = r.2 := rfl
@[simp] theorem State.setRtz_k (s : State) (r : Wide × Byte) : (s.setRtz r).k = s.k := rfl
@[simp] theorem State.setRtz_l (s : State) (r : Wide × Byte) : (s.setRtz r).l = s.l := rfl
@[simp] theorem State.setRtz_stValid (s : State) (r : Wide × Byte) : (s.setRtz r).stValid = s.stValid := rfl
@[simp] theorem State.setRtz_skValid (s : State) (r : Wide × Byte) : (s.setRtz r).skValid = s.skValid := rfl
@[simp] theorem State.setRtz_startReg (s : State) (r : Wide × Byte) : (s.setRtz r).startReg = s.startReg := rfl
@[simp] theorem State.setRtz_endReg (s : State) (r : Wide × Byte) : (s.setRtz r).endReg = s.endReg := rfl
@[simp] theorem State.setRtz_result (s : State) (r : Wide × Byte) : (s.setRtz r).result = s.result := rfl
@[simp] theorem State.setRtz_cursor (s : State) (r : Wide × Byte) : (s.setRtz r).cursor = s.cursor := rfl
@[simp] theorem State.setRtz_ovf (s : State) (r : Wide × Byte) : (s.setRtz r).ovf = s.ovf := rfl
@[simp] theorem State.setRtz_err (s : State) (r : Wide × Byte) : (s.setRtz r).err = s.err := rfl
@[simp] theorem State.setRtz_rkind (s : State) (r : Wide × Byte) : (s.setRtz r).rkind = s.rkind := rfl
@[simp] theorem State.setRtz_phase (s : State) (r : Wide × Byte) : (s.setRtz r).phase = s.phase := rfl
@[simp] theorem State.setRtz_prev (s : State) (r : Wide × Byte) : (s.setRtz r).prev = s.prev := rfl
@[simp] theorem State.setRtz_mem (s : State) (r : Wide × Byte) : (s.setRtz r).mem = s.mem := rfl
@[simp] theorem State.setRtz_skipLog2Max (s : State) (r : Wide × Byte) : (s.setRtz r).skipLog2Max = s.skipLog2Max := rfl
@[simp] theorem State.setRtz_epoch (s : State) (r : Wide × Byte) : (s.setRtz r).epoch = s.epoch := rfl
@[simp] theorem State.setRtz_draws (s : State) (r : Wide × Byte) : (s.setRtz r).draws = s.draws := rfl
@[simp] theorem State.setRtz_host (s : State) (r : Wide × Byte) : (s.setRtz r).host = s.host := rfl
@[simp] theorem State.setRtz_sched (s : State) (r : Wide × Byte) : (s.setRtz r).sched = s.sched := rfl
@[simp] theorem State.setRtz_response (s : State) (r : Wide × Byte) : (s.setRtz r).response = s.response := rfl

/-! Fields after `signal ERR(code)`. -/

@[simp] theorem signalErr_accLo (s : State) (c : ErrCode) : (signalErr s c).accLo = s.accLo := rfl
@[simp] theorem signalErr_accHi (s : State) (c : ErrCode) : (signalErr s c).accHi = s.accHi := rfl
@[simp] theorem signalErr_opnd (s : State) (c : ErrCode) : (signalErr s c).opnd = s.opnd := rfl
@[simp] theorem signalErr_tzcnt (s : State) (c : ErrCode) : (signalErr s c).tzcnt = s.tzcnt := rfl
@[simp] theorem signalErr_k (s : State) (c : ErrCode) : (signalErr s c).k = s.k := rfl
@[simp] theorem signalErr_l (s : State) (c : ErrCode) : (signalErr s c).l = s.l := rfl
@[simp] theorem signalErr_stValid (s : State) (c : ErrCode) : (signalErr s c).stValid = s.stValid := rfl
@[simp] theorem signalErr_skValid (s : State) (c : ErrCode) : (signalErr s c).skValid = s.skValid := rfl
@[simp] theorem signalErr_startReg (s : State) (c : ErrCode) : (signalErr s c).startReg = s.startReg := rfl
@[simp] theorem signalErr_endReg (s : State) (c : ErrCode) : (signalErr s c).endReg = s.endReg := rfl
@[simp] theorem signalErr_result (s : State) (c : ErrCode) : (signalErr s c).result = s.result := rfl
@[simp] theorem signalErr_cursor (s : State) (c : ErrCode) : (signalErr s c).cursor = s.cursor := rfl
@[simp] theorem signalErr_ovf (s : State) (c : ErrCode) : (signalErr s c).ovf = false := rfl
@[simp] theorem signalErr_err (s : State) (c : ErrCode) : (signalErr s c).err = c := rfl
@[simp] theorem signalErr_rkind (s : State) (c : ErrCode) : (signalErr s c).rkind = s.rkind := rfl
@[simp] theorem signalErr_phase (s : State) (c : ErrCode) : (signalErr s c).phase = s.phase := rfl
@[simp] theorem signalErr_prev (s : State) (c : ErrCode) : (signalErr s c).prev = s.prev := rfl
@[simp] theorem signalErr_mem (s : State) (c : ErrCode) : (signalErr s c).mem = s.mem := rfl
@[simp] theorem signalErr_skipLog2Max (s : State) (c : ErrCode) : (signalErr s c).skipLog2Max = s.skipLog2Max := rfl
@[simp] theorem signalErr_epoch (s : State) (c : ErrCode) : (signalErr s c).epoch = s.epoch := rfl
@[simp] theorem signalErr_draws (s : State) (c : ErrCode) : (signalErr s c).draws = s.draws := rfl
@[simp] theorem signalErr_host (s : State) (c : ErrCode) : (signalErr s c).host = s.host := rfl
@[simp] theorem signalErr_sched (s : State) (c : ErrCode) : (signalErr s c).sched = s.sched := rfl
@[simp] theorem signalErr_response (s : State) (c : ErrCode) : (signalErr s c).response = s.response := rfl

/-! Fields after the end of a command without an error. -/

@[simp] theorem commandDone_accLo (s : State) (o : Bool) : (commandDone s o).accLo = s.accLo := rfl
@[simp] theorem commandDone_accHi (s : State) (o : Bool) : (commandDone s o).accHi = s.accHi := rfl
@[simp] theorem commandDone_opnd (s : State) (o : Bool) : (commandDone s o).opnd = s.opnd := rfl
@[simp] theorem commandDone_tzcnt (s : State) (o : Bool) : (commandDone s o).tzcnt = s.tzcnt := rfl
@[simp] theorem commandDone_k (s : State) (o : Bool) : (commandDone s o).k = s.k := rfl
@[simp] theorem commandDone_l (s : State) (o : Bool) : (commandDone s o).l = s.l := rfl
@[simp] theorem commandDone_stValid (s : State) (o : Bool) : (commandDone s o).stValid = s.stValid := rfl
@[simp] theorem commandDone_skValid (s : State) (o : Bool) : (commandDone s o).skValid = s.skValid := rfl
@[simp] theorem commandDone_startReg (s : State) (o : Bool) : (commandDone s o).startReg = s.startReg := rfl
@[simp] theorem commandDone_endReg (s : State) (o : Bool) : (commandDone s o).endReg = s.endReg := rfl
@[simp] theorem commandDone_result (s : State) (o : Bool) : (commandDone s o).result = s.result := rfl
@[simp] theorem commandDone_cursor (s : State) (o : Bool) : (commandDone s o).cursor = s.cursor := rfl
@[simp] theorem commandDone_ovf (s : State) (o : Bool) : (commandDone s o).ovf = o := rfl
@[simp] theorem commandDone_err (s : State) (o : Bool) : (commandDone s o).err = .none := rfl
@[simp] theorem commandDone_rkind (s : State) (o : Bool) : (commandDone s o).rkind = s.rkind := rfl
@[simp] theorem commandDone_phase (s : State) (o : Bool) : (commandDone s o).phase = s.phase := rfl
@[simp] theorem commandDone_prev (s : State) (o : Bool) : (commandDone s o).prev = s.prev := rfl
@[simp] theorem commandDone_mem (s : State) (o : Bool) : (commandDone s o).mem = s.mem := rfl
@[simp] theorem commandDone_skipLog2Max (s : State) (o : Bool) : (commandDone s o).skipLog2Max = s.skipLog2Max := rfl
@[simp] theorem commandDone_epoch (s : State) (o : Bool) : (commandDone s o).epoch = s.epoch := rfl
@[simp] theorem commandDone_draws (s : State) (o : Bool) : (commandDone s o).draws = s.draws := rfl
@[simp] theorem commandDone_host (s : State) (o : Bool) : (commandDone s o).host = s.host := rfl
@[simp] theorem commandDone_sched (s : State) (o : Bool) : (commandDone s o).sched = s.sched := rfl
@[simp] theorem commandDone_response (s : State) (o : Bool) : (commandDone s o).response = s.response := rfl

/-! Fields after the end of a VERIFY. -/

@[simp] theorem finishVerify_accLo (s : State) (v : Word) (kind : ResultKind) : (finishVerify s v kind).accLo = s.accLo := rfl
@[simp] theorem finishVerify_accHi (s : State) (v : Word) (kind : ResultKind) : (finishVerify s v kind).accHi = s.accHi := rfl
@[simp] theorem finishVerify_opnd (s : State) (v : Word) (kind : ResultKind) : (finishVerify s v kind).opnd = s.opnd := rfl
@[simp] theorem finishVerify_tzcnt (s : State) (v : Word) (kind : ResultKind) : (finishVerify s v kind).tzcnt = s.tzcnt := rfl
@[simp] theorem finishVerify_k (s : State) (v : Word) (kind : ResultKind) : (finishVerify s v kind).k = s.k := rfl
@[simp] theorem finishVerify_l (s : State) (v : Word) (kind : ResultKind) : (finishVerify s v kind).l = s.l := rfl
@[simp] theorem finishVerify_stValid (s : State) (v : Word) (kind : ResultKind) : (finishVerify s v kind).stValid = s.stValid := rfl
@[simp] theorem finishVerify_skValid (s : State) (v : Word) (kind : ResultKind) : (finishVerify s v kind).skValid = s.skValid := rfl
@[simp] theorem finishVerify_startReg (s : State) (v : Word) (kind : ResultKind) : (finishVerify s v kind).startReg = s.startReg := rfl
@[simp] theorem finishVerify_endReg (s : State) (v : Word) (kind : ResultKind) : (finishVerify s v kind).endReg = s.endReg := rfl
@[simp] theorem finishVerify_result (s : State) (v : Word) (kind : ResultKind) : (finishVerify s v kind).result = v := rfl
@[simp] theorem finishVerify_cursor (s : State) (v : Word) (kind : ResultKind) : (finishVerify s v kind).cursor = s.cursor := rfl
@[simp] theorem finishVerify_ovf (s : State) (v : Word) (kind : ResultKind) : (finishVerify s v kind).ovf = s.ovf := rfl
@[simp] theorem finishVerify_err (s : State) (v : Word) (kind : ResultKind) : (finishVerify s v kind).err = s.err := rfl
@[simp] theorem finishVerify_rkind (s : State) (v : Word) (kind : ResultKind) : (finishVerify s v kind).rkind = kind := rfl
@[simp] theorem finishVerify_phase (s : State) (v : Word) (kind : ResultKind) : (finishVerify s v kind).phase = .idle := rfl
@[simp] theorem finishVerify_prev (s : State) (v : Word) (kind : ResultKind) : (finishVerify s v kind).prev = s.prev := rfl
@[simp] theorem finishVerify_mem (s : State) (v : Word) (kind : ResultKind) : (finishVerify s v kind).mem = s.mem := rfl
@[simp] theorem finishVerify_skipLog2Max (s : State) (v : Word) (kind : ResultKind) : (finishVerify s v kind).skipLog2Max = s.skipLog2Max := rfl
@[simp] theorem finishVerify_epoch (s : State) (v : Word) (kind : ResultKind) : (finishVerify s v kind).epoch = s.epoch := rfl
@[simp] theorem finishVerify_draws (s : State) (v : Word) (kind : ResultKind) : (finishVerify s v kind).draws = s.draws := rfl
@[simp] theorem finishVerify_host (s : State) (v : Word) (kind : ResultKind) : (finishVerify s v kind).host = s.host := rfl
@[simp] theorem finishVerify_sched (s : State) (v : Word) (kind : ResultKind) : (finishVerify s v kind).sched = s.sched := rfl
@[simp] theorem finishVerify_response (s : State) (v : Word) (kind : ResultKind) : (finishVerify s v kind).response = s.response := rfl

/-! Fields after a step-table write. -/

@[simp] theorem State.writeStep_accLo (s : State) (j : Nat) (w : Word) : (s.writeStep j w).accLo = s.accLo := rfl
@[simp] theorem State.writeStep_accHi (s : State) (j : Nat) (w : Word) : (s.writeStep j w).accHi = s.accHi := rfl
@[simp] theorem State.writeStep_opnd (s : State) (j : Nat) (w : Word) : (s.writeStep j w).opnd = s.opnd := rfl
@[simp] theorem State.writeStep_tzcnt (s : State) (j : Nat) (w : Word) : (s.writeStep j w).tzcnt = s.tzcnt := rfl
@[simp] theorem State.writeStep_k (s : State) (j : Nat) (w : Word) : (s.writeStep j w).k = s.k := rfl
@[simp] theorem State.writeStep_l (s : State) (j : Nat) (w : Word) : (s.writeStep j w).l = s.l := rfl
@[simp] theorem State.writeStep_stValid (s : State) (j : Nat) (w : Word) : (s.writeStep j w).stValid = s.stValid := rfl
@[simp] theorem State.writeStep_skValid (s : State) (j : Nat) (w : Word) : (s.writeStep j w).skValid = s.skValid := rfl
@[simp] theorem State.writeStep_startReg (s : State) (j : Nat) (w : Word) : (s.writeStep j w).startReg = s.startReg := rfl
@[simp] theorem State.writeStep_endReg (s : State) (j : Nat) (w : Word) : (s.writeStep j w).endReg = s.endReg := rfl
@[simp] theorem State.writeStep_result (s : State) (j : Nat) (w : Word) : (s.writeStep j w).result = s.result := rfl
@[simp] theorem State.writeStep_cursor (s : State) (j : Nat) (w : Word) : (s.writeStep j w).cursor = s.cursor := rfl
@[simp] theorem State.writeStep_ovf (s : State) (j : Nat) (w : Word) : (s.writeStep j w).ovf = s.ovf := rfl
@[simp] theorem State.writeStep_err (s : State) (j : Nat) (w : Word) : (s.writeStep j w).err = s.err := rfl
@[simp] theorem State.writeStep_rkind (s : State) (j : Nat) (w : Word) : (s.writeStep j w).rkind = s.rkind := rfl
@[simp] theorem State.writeStep_phase (s : State) (j : Nat) (w : Word) : (s.writeStep j w).phase = s.phase := rfl
@[simp] theorem State.writeStep_prev (s : State) (j : Nat) (w : Word) : (s.writeStep j w).prev = s.prev := rfl
@[simp] theorem State.writeStep_mem (s : State) (j : Nat) (w : Word) : (s.writeStep j w).mem = Memory.store s.mem (stAddr j) (wordBytes w) := rfl
@[simp] theorem State.writeStep_skipLog2Max (s : State) (j : Nat) (w : Word) : (s.writeStep j w).skipLog2Max = s.skipLog2Max := rfl
@[simp] theorem State.writeStep_epoch (s : State) (j : Nat) (w : Word) : (s.writeStep j w).epoch = s.epoch := rfl
@[simp] theorem State.writeStep_draws (s : State) (j : Nat) (w : Word) : (s.writeStep j w).draws = s.draws := rfl
@[simp] theorem State.writeStep_host (s : State) (j : Nat) (w : Word) : (s.writeStep j w).host = s.host := rfl
@[simp] theorem State.writeStep_sched (s : State) (j : Nat) (w : Word) : (s.writeStep j w).sched = s.sched := rfl
@[simp] theorem State.writeStep_response (s : State) (j : Nat) (w : Word) : (s.writeStep j w).response = s.response := rfl

/-! Fields after a skip-table write. -/

@[simp] theorem State.writeSkip_accLo (s : State) (j : Nat) (w : Word) : (s.writeSkip j w).accLo = s.accLo := rfl
@[simp] theorem State.writeSkip_accHi (s : State) (j : Nat) (w : Word) : (s.writeSkip j w).accHi = s.accHi := rfl
@[simp] theorem State.writeSkip_opnd (s : State) (j : Nat) (w : Word) : (s.writeSkip j w).opnd = s.opnd := rfl
@[simp] theorem State.writeSkip_tzcnt (s : State) (j : Nat) (w : Word) : (s.writeSkip j w).tzcnt = s.tzcnt := rfl
@[simp] theorem State.writeSkip_k (s : State) (j : Nat) (w : Word) : (s.writeSkip j w).k = s.k := rfl
@[simp] theorem State.writeSkip_l (s : State) (j : Nat) (w : Word) : (s.writeSkip j w).l = s.l := rfl
@[simp] theorem State.writeSkip_stValid (s : State) (j : Nat) (w : Word) : (s.writeSkip j w).stValid = s.stValid := rfl
@[simp] theorem State.writeSkip_skValid (s : State) (j : Nat) (w : Word) : (s.writeSkip j w).skValid = s.skValid := rfl
@[simp] theorem State.writeSkip_startReg (s : State) (j : Nat) (w : Word) : (s.writeSkip j w).startReg = s.startReg := rfl
@[simp] theorem State.writeSkip_endReg (s : State) (j : Nat) (w : Word) : (s.writeSkip j w).endReg = s.endReg := rfl
@[simp] theorem State.writeSkip_result (s : State) (j : Nat) (w : Word) : (s.writeSkip j w).result = s.result := rfl
@[simp] theorem State.writeSkip_cursor (s : State) (j : Nat) (w : Word) : (s.writeSkip j w).cursor = s.cursor := rfl
@[simp] theorem State.writeSkip_ovf (s : State) (j : Nat) (w : Word) : (s.writeSkip j w).ovf = s.ovf := rfl
@[simp] theorem State.writeSkip_err (s : State) (j : Nat) (w : Word) : (s.writeSkip j w).err = s.err := rfl
@[simp] theorem State.writeSkip_rkind (s : State) (j : Nat) (w : Word) : (s.writeSkip j w).rkind = s.rkind := rfl
@[simp] theorem State.writeSkip_phase (s : State) (j : Nat) (w : Word) : (s.writeSkip j w).phase = s.phase := rfl
@[simp] theorem State.writeSkip_prev (s : State) (j : Nat) (w : Word) : (s.writeSkip j w).prev = s.prev := rfl
@[simp] theorem State.writeSkip_mem (s : State) (j : Nat) (w : Word) : (s.writeSkip j w).mem = Memory.insert s.mem (skAddr j) (w.extractLsb' 0 8) := rfl
@[simp] theorem State.writeSkip_skipLog2Max (s : State) (j : Nat) (w : Word) : (s.writeSkip j w).skipLog2Max = s.skipLog2Max := rfl
@[simp] theorem State.writeSkip_epoch (s : State) (j : Nat) (w : Word) : (s.writeSkip j w).epoch = s.epoch := rfl
@[simp] theorem State.writeSkip_draws (s : State) (j : Nat) (w : Word) : (s.writeSkip j w).draws = s.draws := rfl
@[simp] theorem State.writeSkip_host (s : State) (j : Nat) (w : Word) : (s.writeSkip j w).host = s.host := rfl
@[simp] theorem State.writeSkip_sched (s : State) (j : Nat) (w : Word) : (s.writeSkip j w).sched = s.sched := rfl
@[simp] theorem State.writeSkip_response (s : State) (j : Nat) (w : Word) : (s.writeSkip j w).response = s.response := rfl

/-! Fields after `PHASE <- p`. -/

@[simp] theorem State.setPhase_accLo (s : State) (p : Phase) : (s.setPhase p).accLo = s.accLo := rfl
@[simp] theorem State.setPhase_accHi (s : State) (p : Phase) : (s.setPhase p).accHi = s.accHi := rfl
@[simp] theorem State.setPhase_opnd (s : State) (p : Phase) : (s.setPhase p).opnd = s.opnd := rfl
@[simp] theorem State.setPhase_tzcnt (s : State) (p : Phase) : (s.setPhase p).tzcnt = s.tzcnt := rfl
@[simp] theorem State.setPhase_k (s : State) (p : Phase) : (s.setPhase p).k = s.k := rfl
@[simp] theorem State.setPhase_l (s : State) (p : Phase) : (s.setPhase p).l = s.l := rfl
@[simp] theorem State.setPhase_stValid (s : State) (p : Phase) : (s.setPhase p).stValid = s.stValid := rfl
@[simp] theorem State.setPhase_skValid (s : State) (p : Phase) : (s.setPhase p).skValid = s.skValid := rfl
@[simp] theorem State.setPhase_startReg (s : State) (p : Phase) : (s.setPhase p).startReg = s.startReg := rfl
@[simp] theorem State.setPhase_endReg (s : State) (p : Phase) : (s.setPhase p).endReg = s.endReg := rfl
@[simp] theorem State.setPhase_result (s : State) (p : Phase) : (s.setPhase p).result = s.result := rfl
@[simp] theorem State.setPhase_cursor (s : State) (p : Phase) : (s.setPhase p).cursor = s.cursor := rfl
@[simp] theorem State.setPhase_ovf (s : State) (p : Phase) : (s.setPhase p).ovf = s.ovf := rfl
@[simp] theorem State.setPhase_err (s : State) (p : Phase) : (s.setPhase p).err = s.err := rfl
@[simp] theorem State.setPhase_rkind (s : State) (p : Phase) : (s.setPhase p).rkind = s.rkind := rfl
@[simp] theorem State.setPhase_phase (s : State) (p : Phase) : (s.setPhase p).phase = p := rfl
@[simp] theorem State.setPhase_prev (s : State) (p : Phase) : (s.setPhase p).prev = s.prev := rfl
@[simp] theorem State.setPhase_mem (s : State) (p : Phase) : (s.setPhase p).mem = s.mem := rfl
@[simp] theorem State.setPhase_skipLog2Max (s : State) (p : Phase) : (s.setPhase p).skipLog2Max = s.skipLog2Max := rfl
@[simp] theorem State.setPhase_epoch (s : State) (p : Phase) : (s.setPhase p).epoch = s.epoch := rfl
@[simp] theorem State.setPhase_draws (s : State) (p : Phase) : (s.setPhase p).draws = s.draws := rfl
@[simp] theorem State.setPhase_host (s : State) (p : Phase) : (s.setPhase p).host = s.host := rfl
@[simp] theorem State.setPhase_sched (s : State) (p : Phase) : (s.setPhase p).sched = s.sched := rfl
@[simp] theorem State.setPhase_response (s : State) (p : Phase) : (s.setPhase p).response = s.response := rfl

/-! Fields after `STATUS.OVF <- 1`. -/

@[simp] theorem State.raiseOvf_accLo (s : State) : (s.raiseOvf).accLo = s.accLo := rfl
@[simp] theorem State.raiseOvf_accHi (s : State) : (s.raiseOvf).accHi = s.accHi := rfl
@[simp] theorem State.raiseOvf_opnd (s : State) : (s.raiseOvf).opnd = s.opnd := rfl
@[simp] theorem State.raiseOvf_tzcnt (s : State) : (s.raiseOvf).tzcnt = s.tzcnt := rfl
@[simp] theorem State.raiseOvf_k (s : State) : (s.raiseOvf).k = s.k := rfl
@[simp] theorem State.raiseOvf_l (s : State) : (s.raiseOvf).l = s.l := rfl
@[simp] theorem State.raiseOvf_stValid (s : State) : (s.raiseOvf).stValid = s.stValid := rfl
@[simp] theorem State.raiseOvf_skValid (s : State) : (s.raiseOvf).skValid = s.skValid := rfl
@[simp] theorem State.raiseOvf_startReg (s : State) : (s.raiseOvf).startReg = s.startReg := rfl
@[simp] theorem State.raiseOvf_endReg (s : State) : (s.raiseOvf).endReg = s.endReg := rfl
@[simp] theorem State.raiseOvf_result (s : State) : (s.raiseOvf).result = s.result := rfl
@[simp] theorem State.raiseOvf_cursor (s : State) : (s.raiseOvf).cursor = s.cursor := rfl
@[simp] theorem State.raiseOvf_ovf (s : State) : (s.raiseOvf).ovf = true := rfl
@[simp] theorem State.raiseOvf_err (s : State) : (s.raiseOvf).err = s.err := rfl
@[simp] theorem State.raiseOvf_rkind (s : State) : (s.raiseOvf).rkind = s.rkind := rfl
@[simp] theorem State.raiseOvf_phase (s : State) : (s.raiseOvf).phase = s.phase := rfl
@[simp] theorem State.raiseOvf_prev (s : State) : (s.raiseOvf).prev = s.prev := rfl
@[simp] theorem State.raiseOvf_mem (s : State) : (s.raiseOvf).mem = s.mem := rfl
@[simp] theorem State.raiseOvf_skipLog2Max (s : State) : (s.raiseOvf).skipLog2Max = s.skipLog2Max := rfl
@[simp] theorem State.raiseOvf_epoch (s : State) : (s.raiseOvf).epoch = s.epoch := rfl
@[simp] theorem State.raiseOvf_draws (s : State) : (s.raiseOvf).draws = s.draws := rfl
@[simp] theorem State.raiseOvf_host (s : State) : (s.raiseOvf).host = s.host := rfl
@[simp] theorem State.raiseOvf_sched (s : State) : (s.raiseOvf).sched = s.sched := rfl
@[simp] theorem State.raiseOvf_response (s : State) : (s.raiseOvf).response = s.response := rfl

/-! Fields after the start of a VERIFY. -/

@[simp] theorem startVerify_accLo (s : State) : (startVerify s).accLo = s.accLo := rfl
@[simp] theorem startVerify_accHi (s : State) : (startVerify s).accHi = s.accHi := rfl
@[simp] theorem startVerify_opnd (s : State) : (startVerify s).opnd = s.opnd := rfl
@[simp] theorem startVerify_tzcnt (s : State) : (startVerify s).tzcnt = s.tzcnt := rfl
@[simp] theorem startVerify_k (s : State) : (startVerify s).k = s.k := rfl
@[simp] theorem startVerify_l (s : State) : (startVerify s).l = s.l := rfl
@[simp] theorem startVerify_stValid (s : State) : (startVerify s).stValid = s.stValid := rfl
@[simp] theorem startVerify_skValid (s : State) : (startVerify s).skValid = s.skValid := rfl
@[simp] theorem startVerify_startReg (s : State) : (startVerify s).startReg = s.startReg := rfl
@[simp] theorem startVerify_endReg (s : State) : (startVerify s).endReg = s.endReg := rfl
@[simp] theorem startVerify_result (s : State) : (startVerify s).result = s.result := rfl
@[simp] theorem startVerify_cursor (s : State) : (startVerify s).cursor = firstCandidate s.startReg := rfl
@[simp] theorem startVerify_ovf (s : State) : (startVerify s).ovf = s.ovf := rfl
@[simp] theorem startVerify_err (s : State) : (startVerify s).err = s.err := rfl
@[simp] theorem startVerify_rkind (s : State) : (startVerify s).rkind = .none := rfl
@[simp] theorem startVerify_phase (s : State) : (startVerify s).phase = .outer := rfl
@[simp] theorem startVerify_prev (s : State) : (startVerify s).prev = s.prev := rfl
@[simp] theorem startVerify_mem (s : State) : (startVerify s).mem = s.mem := rfl
@[simp] theorem startVerify_skipLog2Max (s : State) : (startVerify s).skipLog2Max = s.skipLog2Max := rfl
@[simp] theorem startVerify_epoch (s : State) : (startVerify s).epoch = s.epoch := rfl
@[simp] theorem startVerify_draws (s : State) : (startVerify s).draws = s.draws := rfl
@[simp] theorem startVerify_host (s : State) : (startVerify s).host = s.host := rfl
@[simp] theorem startVerify_sched (s : State) : (startVerify s).sched = s.sched := rfl
@[simp] theorem startVerify_response (s : State) : (startVerify s).response = s.response := rfl

/-! Fields after a VERIFY with a table absent. -/

@[simp] theorem emptyVerify_accLo (s : State) : (emptyVerify s).accLo = s.accLo := rfl
@[simp] theorem emptyVerify_accHi (s : State) : (emptyVerify s).accHi = s.accHi := rfl
@[simp] theorem emptyVerify_opnd (s : State) : (emptyVerify s).opnd = s.opnd := rfl
@[simp] theorem emptyVerify_tzcnt (s : State) : (emptyVerify s).tzcnt = s.tzcnt := rfl
@[simp] theorem emptyVerify_k (s : State) : (emptyVerify s).k = s.k := rfl
@[simp] theorem emptyVerify_l (s : State) : (emptyVerify s).l = s.l := rfl
@[simp] theorem emptyVerify_stValid (s : State) : (emptyVerify s).stValid = s.stValid := rfl
@[simp] theorem emptyVerify_skValid (s : State) : (emptyVerify s).skValid = s.skValid := rfl
@[simp] theorem emptyVerify_startReg (s : State) : (emptyVerify s).startReg = s.startReg := rfl
@[simp] theorem emptyVerify_endReg (s : State) : (emptyVerify s).endReg = s.endReg := rfl
@[simp] theorem emptyVerify_result (s : State) : (emptyVerify s).result = 0#64 := rfl
@[simp] theorem emptyVerify_cursor (s : State) : (emptyVerify s).cursor = s.cursor := rfl
@[simp] theorem emptyVerify_ovf (s : State) : (emptyVerify s).ovf = s.ovf := rfl
@[simp] theorem emptyVerify_err (s : State) : (emptyVerify s).err = s.err := rfl
@[simp] theorem emptyVerify_rkind (s : State) : (emptyVerify s).rkind = .empty := rfl
@[simp] theorem emptyVerify_phase (s : State) : (emptyVerify s).phase = s.phase := rfl
@[simp] theorem emptyVerify_prev (s : State) : (emptyVerify s).prev = s.prev := rfl
@[simp] theorem emptyVerify_mem (s : State) : (emptyVerify s).mem = s.mem := rfl
@[simp] theorem emptyVerify_skipLog2Max (s : State) : (emptyVerify s).skipLog2Max = s.skipLog2Max := rfl
@[simp] theorem emptyVerify_epoch (s : State) : (emptyVerify s).epoch = s.epoch := rfl
@[simp] theorem emptyVerify_draws (s : State) : (emptyVerify s).draws = s.draws := rfl
@[simp] theorem emptyVerify_host (s : State) : (emptyVerify s).host = s.host := rfl
@[simp] theorem emptyVerify_sched (s : State) : (emptyVerify s).sched = s.sched := rfl
@[simp] theorem emptyVerify_response (s : State) : (emptyVerify s).response = s.response := rfl

/-! Fields after the exit of the trajectory loop. -/

@[simp] theorem leaveInner_accLo (s : State) : (leaveInner s).accLo = s.accLo := rfl
@[simp] theorem leaveInner_accHi (s : State) : (leaveInner s).accHi = s.accHi := rfl
@[simp] theorem leaveInner_opnd (s : State) : (leaveInner s).opnd = s.opnd := rfl
@[simp] theorem leaveInner_tzcnt (s : State) : (leaveInner s).tzcnt = s.tzcnt := rfl
@[simp] theorem leaveInner_k (s : State) : (leaveInner s).k = s.k := rfl
@[simp] theorem leaveInner_l (s : State) : (leaveInner s).l = s.l := rfl
@[simp] theorem leaveInner_stValid (s : State) : (leaveInner s).stValid = s.stValid := rfl
@[simp] theorem leaveInner_skValid (s : State) : (leaveInner s).skValid = s.skValid := rfl
@[simp] theorem leaveInner_startReg (s : State) : (leaveInner s).startReg = s.startReg := rfl
@[simp] theorem leaveInner_endReg (s : State) : (leaveInner s).endReg = s.endReg := rfl
@[simp] theorem leaveInner_result (s : State) : (leaveInner s).result = s.result := rfl
@[simp] theorem leaveInner_cursor (s : State) : (leaveInner s).cursor = s.cursor := rfl
@[simp] theorem leaveInner_ovf (s : State) : (leaveInner s).ovf = s.ovf := rfl
@[simp] theorem leaveInner_err (s : State) : (leaveInner s).err = s.err := rfl
@[simp] theorem leaveInner_rkind (s : State) : (leaveInner s).rkind = s.rkind := rfl
@[simp] theorem leaveInner_phase (s : State) : (leaveInner s).phase = .skip := rfl
@[simp] theorem leaveInner_prev (s : State) : (leaveInner s).prev = s.cursor := rfl
@[simp] theorem leaveInner_mem (s : State) : (leaveInner s).mem = s.mem := rfl
@[simp] theorem leaveInner_skipLog2Max (s : State) : (leaveInner s).skipLog2Max = s.skipLog2Max := rfl
@[simp] theorem leaveInner_epoch (s : State) : (leaveInner s).epoch = s.epoch := rfl
@[simp] theorem leaveInner_draws (s : State) : (leaveInner s).draws = s.draws := rfl
@[simp] theorem leaveInner_host (s : State) : (leaveInner s).host = s.host := rfl
@[simp] theorem leaveInner_sched (s : State) : (leaveInner s).sched = s.sched := rfl
@[simp] theorem leaveInner_response (s : State) : (leaveInner s).response = s.response := rfl

/-! Fields after a skip that did not wrap. -/

@[simp] theorem advanceCursor_accLo (s : State) (n : Word) : (advanceCursor s n).accLo = s.accLo := rfl
@[simp] theorem advanceCursor_accHi (s : State) (n : Word) : (advanceCursor s n).accHi = s.accHi := rfl
@[simp] theorem advanceCursor_opnd (s : State) (n : Word) : (advanceCursor s n).opnd = s.opnd := rfl
@[simp] theorem advanceCursor_tzcnt (s : State) (n : Word) : (advanceCursor s n).tzcnt = s.tzcnt := rfl
@[simp] theorem advanceCursor_k (s : State) (n : Word) : (advanceCursor s n).k = s.k := rfl
@[simp] theorem advanceCursor_l (s : State) (n : Word) : (advanceCursor s n).l = s.l := rfl
@[simp] theorem advanceCursor_stValid (s : State) (n : Word) : (advanceCursor s n).stValid = s.stValid := rfl
@[simp] theorem advanceCursor_skValid (s : State) (n : Word) : (advanceCursor s n).skValid = s.skValid := rfl
@[simp] theorem advanceCursor_startReg (s : State) (n : Word) : (advanceCursor s n).startReg = s.startReg := rfl
@[simp] theorem advanceCursor_endReg (s : State) (n : Word) : (advanceCursor s n).endReg = s.endReg := rfl
@[simp] theorem advanceCursor_result (s : State) (n : Word) : (advanceCursor s n).result = s.result := rfl
@[simp] theorem advanceCursor_cursor (s : State) (n : Word) : (advanceCursor s n).cursor = n := rfl
@[simp] theorem advanceCursor_ovf (s : State) (n : Word) : (advanceCursor s n).ovf = s.ovf := rfl
@[simp] theorem advanceCursor_err (s : State) (n : Word) : (advanceCursor s n).err = s.err := rfl
@[simp] theorem advanceCursor_rkind (s : State) (n : Word) : (advanceCursor s n).rkind = s.rkind := rfl
@[simp] theorem advanceCursor_phase (s : State) (n : Word) : (advanceCursor s n).phase = if forbiddenResidue n then .skip else .outer := rfl
@[simp] theorem advanceCursor_prev (s : State) (n : Word) : (advanceCursor s n).prev = s.prev := rfl
@[simp] theorem advanceCursor_mem (s : State) (n : Word) : (advanceCursor s n).mem = s.mem := rfl
@[simp] theorem advanceCursor_skipLog2Max (s : State) (n : Word) : (advanceCursor s n).skipLog2Max = s.skipLog2Max := rfl
@[simp] theorem advanceCursor_epoch (s : State) (n : Word) : (advanceCursor s n).epoch = s.epoch := rfl
@[simp] theorem advanceCursor_draws (s : State) (n : Word) : (advanceCursor s n).draws = s.draws := rfl
@[simp] theorem advanceCursor_host (s : State) (n : Word) : (advanceCursor s n).host = s.host := rfl
@[simp] theorem advanceCursor_sched (s : State) (n : Word) : (advanceCursor s n).sched = s.sched := rfl
@[simp] theorem advanceCursor_response (s : State) (n : Word) : (advanceCursor s n).response = s.response := rfl

/-! Fields after a free read. -/

@[simp] theorem State.countDraw_accLo (s : State) : (s.countDraw).accLo = s.accLo := rfl
@[simp] theorem State.countDraw_accHi (s : State) : (s.countDraw).accHi = s.accHi := rfl
@[simp] theorem State.countDraw_opnd (s : State) : (s.countDraw).opnd = s.opnd := rfl
@[simp] theorem State.countDraw_tzcnt (s : State) : (s.countDraw).tzcnt = s.tzcnt := rfl
@[simp] theorem State.countDraw_k (s : State) : (s.countDraw).k = s.k := rfl
@[simp] theorem State.countDraw_l (s : State) : (s.countDraw).l = s.l := rfl
@[simp] theorem State.countDraw_stValid (s : State) : (s.countDraw).stValid = s.stValid := rfl
@[simp] theorem State.countDraw_skValid (s : State) : (s.countDraw).skValid = s.skValid := rfl
@[simp] theorem State.countDraw_startReg (s : State) : (s.countDraw).startReg = s.startReg := rfl
@[simp] theorem State.countDraw_endReg (s : State) : (s.countDraw).endReg = s.endReg := rfl
@[simp] theorem State.countDraw_result (s : State) : (s.countDraw).result = s.result := rfl
@[simp] theorem State.countDraw_cursor (s : State) : (s.countDraw).cursor = s.cursor := rfl
@[simp] theorem State.countDraw_ovf (s : State) : (s.countDraw).ovf = s.ovf := rfl
@[simp] theorem State.countDraw_err (s : State) : (s.countDraw).err = s.err := rfl
@[simp] theorem State.countDraw_rkind (s : State) : (s.countDraw).rkind = s.rkind := rfl
@[simp] theorem State.countDraw_phase (s : State) : (s.countDraw).phase = s.phase := rfl
@[simp] theorem State.countDraw_prev (s : State) : (s.countDraw).prev = s.prev := rfl
@[simp] theorem State.countDraw_mem (s : State) : (s.countDraw).mem = s.mem := rfl
@[simp] theorem State.countDraw_skipLog2Max (s : State) : (s.countDraw).skipLog2Max = s.skipLog2Max := rfl
@[simp] theorem State.countDraw_epoch (s : State) : (s.countDraw).epoch = s.epoch := rfl
@[simp] theorem State.countDraw_draws (s : State) : (s.countDraw).draws = s.draws + 1 := rfl
@[simp] theorem State.countDraw_host (s : State) : (s.countDraw).host = s.host := rfl
@[simp] theorem State.countDraw_sched (s : State) : (s.countDraw).sched = s.sched := rfl
@[simp] theorem State.countDraw_response (s : State) : (s.countDraw).response = s.response := rfl

/-! Fields after taking over what a reset keeps. -/

@[simp] theorem State.keepOutside_accLo (s before : State) : (s.keepOutside before).accLo = s.accLo := rfl
@[simp] theorem State.keepOutside_accHi (s before : State) : (s.keepOutside before).accHi = s.accHi := rfl
@[simp] theorem State.keepOutside_opnd (s before : State) : (s.keepOutside before).opnd = s.opnd := rfl
@[simp] theorem State.keepOutside_tzcnt (s before : State) : (s.keepOutside before).tzcnt = s.tzcnt := rfl
@[simp] theorem State.keepOutside_k (s before : State) : (s.keepOutside before).k = s.k := rfl
@[simp] theorem State.keepOutside_l (s before : State) : (s.keepOutside before).l = s.l := rfl
@[simp] theorem State.keepOutside_stValid (s before : State) : (s.keepOutside before).stValid = s.stValid := rfl
@[simp] theorem State.keepOutside_skValid (s before : State) : (s.keepOutside before).skValid = s.skValid := rfl
@[simp] theorem State.keepOutside_startReg (s before : State) : (s.keepOutside before).startReg = s.startReg := rfl
@[simp] theorem State.keepOutside_endReg (s before : State) : (s.keepOutside before).endReg = s.endReg := rfl
@[simp] theorem State.keepOutside_result (s before : State) : (s.keepOutside before).result = s.result := rfl
@[simp] theorem State.keepOutside_cursor (s before : State) : (s.keepOutside before).cursor = s.cursor := rfl
@[simp] theorem State.keepOutside_ovf (s before : State) : (s.keepOutside before).ovf = s.ovf := rfl
@[simp] theorem State.keepOutside_err (s before : State) : (s.keepOutside before).err = s.err := rfl
@[simp] theorem State.keepOutside_rkind (s before : State) : (s.keepOutside before).rkind = s.rkind := rfl
@[simp] theorem State.keepOutside_phase (s before : State) : (s.keepOutside before).phase = s.phase := rfl
@[simp] theorem State.keepOutside_prev (s before : State) : (s.keepOutside before).prev = s.prev := rfl
@[simp] theorem State.keepOutside_mem (s before : State) : (s.keepOutside before).mem = s.mem := rfl
@[simp] theorem State.keepOutside_skipLog2Max (s before : State) : (s.keepOutside before).skipLog2Max = s.skipLog2Max := rfl
@[simp] theorem State.keepOutside_epoch (s before : State) : (s.keepOutside before).epoch = before.epoch + 1 := rfl
@[simp] theorem State.keepOutside_draws (s before : State) : (s.keepOutside before).draws = before.draws := rfl
@[simp] theorem State.keepOutside_host (s before : State) : (s.keepOutside before).host = before.host := rfl
@[simp] theorem State.keepOutside_sched (s before : State) : (s.keepOutside before).sched = before.sched := rfl
@[simp] theorem State.keepOutside_response (s before : State) : (s.keepOutside before).response = s.response := rfl

/-! Fields after the host port's answer. -/

@[simp] theorem State.answer_accLo (s : State) (r : BusResponse) : (s.answer r).accLo = s.accLo := rfl
@[simp] theorem State.answer_accHi (s : State) (r : BusResponse) : (s.answer r).accHi = s.accHi := rfl
@[simp] theorem State.answer_opnd (s : State) (r : BusResponse) : (s.answer r).opnd = s.opnd := rfl
@[simp] theorem State.answer_tzcnt (s : State) (r : BusResponse) : (s.answer r).tzcnt = s.tzcnt := rfl
@[simp] theorem State.answer_k (s : State) (r : BusResponse) : (s.answer r).k = s.k := rfl
@[simp] theorem State.answer_l (s : State) (r : BusResponse) : (s.answer r).l = s.l := rfl
@[simp] theorem State.answer_stValid (s : State) (r : BusResponse) : (s.answer r).stValid = s.stValid := rfl
@[simp] theorem State.answer_skValid (s : State) (r : BusResponse) : (s.answer r).skValid = s.skValid := rfl
@[simp] theorem State.answer_startReg (s : State) (r : BusResponse) : (s.answer r).startReg = s.startReg := rfl
@[simp] theorem State.answer_endReg (s : State) (r : BusResponse) : (s.answer r).endReg = s.endReg := rfl
@[simp] theorem State.answer_result (s : State) (r : BusResponse) : (s.answer r).result = s.result := rfl
@[simp] theorem State.answer_cursor (s : State) (r : BusResponse) : (s.answer r).cursor = s.cursor := rfl
@[simp] theorem State.answer_ovf (s : State) (r : BusResponse) : (s.answer r).ovf = s.ovf := rfl
@[simp] theorem State.answer_err (s : State) (r : BusResponse) : (s.answer r).err = s.err := rfl
@[simp] theorem State.answer_rkind (s : State) (r : BusResponse) : (s.answer r).rkind = s.rkind := rfl
@[simp] theorem State.answer_phase (s : State) (r : BusResponse) : (s.answer r).phase = s.phase := rfl
@[simp] theorem State.answer_prev (s : State) (r : BusResponse) : (s.answer r).prev = s.prev := rfl
@[simp] theorem State.answer_mem (s : State) (r : BusResponse) : (s.answer r).mem = s.mem := rfl
@[simp] theorem State.answer_skipLog2Max (s : State) (r : BusResponse) : (s.answer r).skipLog2Max = s.skipLog2Max := rfl
@[simp] theorem State.answer_epoch (s : State) (r : BusResponse) : (s.answer r).epoch = s.epoch := rfl
@[simp] theorem State.answer_draws (s : State) (r : BusResponse) : (s.answer r).draws = s.draws := rfl
@[simp] theorem State.answer_host (s : State) (r : BusResponse) : (s.answer r).host = s.host := rfl
@[simp] theorem State.answer_sched (s : State) (r : BusResponse) : (s.answer r).sched = s.sched := rfl
@[simp] theorem State.answer_response (s : State) (r : BusResponse) : (s.answer r).response = r := rfl

/-! Fields after the host's remaining operations. -/

@[simp] theorem State.withHost_accLo (s : State) (rest : List HostOp) : (s.withHost rest).accLo = s.accLo := rfl
@[simp] theorem State.withHost_accHi (s : State) (rest : List HostOp) : (s.withHost rest).accHi = s.accHi := rfl
@[simp] theorem State.withHost_opnd (s : State) (rest : List HostOp) : (s.withHost rest).opnd = s.opnd := rfl
@[simp] theorem State.withHost_tzcnt (s : State) (rest : List HostOp) : (s.withHost rest).tzcnt = s.tzcnt := rfl
@[simp] theorem State.withHost_k (s : State) (rest : List HostOp) : (s.withHost rest).k = s.k := rfl
@[simp] theorem State.withHost_l (s : State) (rest : List HostOp) : (s.withHost rest).l = s.l := rfl
@[simp] theorem State.withHost_stValid (s : State) (rest : List HostOp) : (s.withHost rest).stValid = s.stValid := rfl
@[simp] theorem State.withHost_skValid (s : State) (rest : List HostOp) : (s.withHost rest).skValid = s.skValid := rfl
@[simp] theorem State.withHost_startReg (s : State) (rest : List HostOp) : (s.withHost rest).startReg = s.startReg := rfl
@[simp] theorem State.withHost_endReg (s : State) (rest : List HostOp) : (s.withHost rest).endReg = s.endReg := rfl
@[simp] theorem State.withHost_result (s : State) (rest : List HostOp) : (s.withHost rest).result = s.result := rfl
@[simp] theorem State.withHost_cursor (s : State) (rest : List HostOp) : (s.withHost rest).cursor = s.cursor := rfl
@[simp] theorem State.withHost_ovf (s : State) (rest : List HostOp) : (s.withHost rest).ovf = s.ovf := rfl
@[simp] theorem State.withHost_err (s : State) (rest : List HostOp) : (s.withHost rest).err = s.err := rfl
@[simp] theorem State.withHost_rkind (s : State) (rest : List HostOp) : (s.withHost rest).rkind = s.rkind := rfl
@[simp] theorem State.withHost_phase (s : State) (rest : List HostOp) : (s.withHost rest).phase = s.phase := rfl
@[simp] theorem State.withHost_prev (s : State) (rest : List HostOp) : (s.withHost rest).prev = s.prev := rfl
@[simp] theorem State.withHost_mem (s : State) (rest : List HostOp) : (s.withHost rest).mem = s.mem := rfl
@[simp] theorem State.withHost_skipLog2Max (s : State) (rest : List HostOp) : (s.withHost rest).skipLog2Max = s.skipLog2Max := rfl
@[simp] theorem State.withHost_epoch (s : State) (rest : List HostOp) : (s.withHost rest).epoch = s.epoch := rfl
@[simp] theorem State.withHost_draws (s : State) (rest : List HostOp) : (s.withHost rest).draws = s.draws := rfl
@[simp] theorem State.withHost_host (s : State) (rest : List HostOp) : (s.withHost rest).host = rest := rfl
@[simp] theorem State.withHost_sched (s : State) (rest : List HostOp) : (s.withHost rest).sched = s.sched := rfl
@[simp] theorem State.withHost_response (s : State) (rest : List HostOp) : (s.withHost rest).response = s.response := rfl

/-! Fields after the remaining interleaving. -/

@[simp] theorem State.withSched_accLo (s : State) (rest : List Agent) : (s.withSched rest).accLo = s.accLo := rfl
@[simp] theorem State.withSched_accHi (s : State) (rest : List Agent) : (s.withSched rest).accHi = s.accHi := rfl
@[simp] theorem State.withSched_opnd (s : State) (rest : List Agent) : (s.withSched rest).opnd = s.opnd := rfl
@[simp] theorem State.withSched_tzcnt (s : State) (rest : List Agent) : (s.withSched rest).tzcnt = s.tzcnt := rfl
@[simp] theorem State.withSched_k (s : State) (rest : List Agent) : (s.withSched rest).k = s.k := rfl
@[simp] theorem State.withSched_l (s : State) (rest : List Agent) : (s.withSched rest).l = s.l := rfl
@[simp] theorem State.withSched_stValid (s : State) (rest : List Agent) : (s.withSched rest).stValid = s.stValid := rfl
@[simp] theorem State.withSched_skValid (s : State) (rest : List Agent) : (s.withSched rest).skValid = s.skValid := rfl
@[simp] theorem State.withSched_startReg (s : State) (rest : List Agent) : (s.withSched rest).startReg = s.startReg := rfl
@[simp] theorem State.withSched_endReg (s : State) (rest : List Agent) : (s.withSched rest).endReg = s.endReg := rfl
@[simp] theorem State.withSched_result (s : State) (rest : List Agent) : (s.withSched rest).result = s.result := rfl
@[simp] theorem State.withSched_cursor (s : State) (rest : List Agent) : (s.withSched rest).cursor = s.cursor := rfl
@[simp] theorem State.withSched_ovf (s : State) (rest : List Agent) : (s.withSched rest).ovf = s.ovf := rfl
@[simp] theorem State.withSched_err (s : State) (rest : List Agent) : (s.withSched rest).err = s.err := rfl
@[simp] theorem State.withSched_rkind (s : State) (rest : List Agent) : (s.withSched rest).rkind = s.rkind := rfl
@[simp] theorem State.withSched_phase (s : State) (rest : List Agent) : (s.withSched rest).phase = s.phase := rfl
@[simp] theorem State.withSched_prev (s : State) (rest : List Agent) : (s.withSched rest).prev = s.prev := rfl
@[simp] theorem State.withSched_mem (s : State) (rest : List Agent) : (s.withSched rest).mem = s.mem := rfl
@[simp] theorem State.withSched_skipLog2Max (s : State) (rest : List Agent) : (s.withSched rest).skipLog2Max = s.skipLog2Max := rfl
@[simp] theorem State.withSched_epoch (s : State) (rest : List Agent) : (s.withSched rest).epoch = s.epoch := rfl
@[simp] theorem State.withSched_draws (s : State) (rest : List Agent) : (s.withSched rest).draws = s.draws := rfl
@[simp] theorem State.withSched_host (s : State) (rest : List Agent) : (s.withSched rest).host = s.host := rfl
@[simp] theorem State.withSched_sched (s : State) (rest : List Agent) : (s.withSched rest).sched = rest := rfl
@[simp] theorem State.withSched_response (s : State) (rest : List Agent) : (s.withSched rest).response = s.response := rfl

/-! Whole updates. -/

/-- The words of a 128-bit value, joined again. -/
theorem extract_append (v : Wide) : v.extractLsb' 64 64 ++ v.extractLsb' 0 64 = v := by
  apply BitVec.eq_of_getLsbD_eq
  intro i hi
  rw [BitVec.getLsbD_append]
  split
  · simp only [BitVec.getLsbD_extractLsb', Nat.zero_add]
    simp_all
  · simp only [BitVec.getLsbD_extractLsb']
    rw [show 64 + (i - 64) = i by omega]
    simp
    omega

@[simp] theorem State.setAcc_acc (s : State) (v : Wide) : (s.setAcc v).acc = v := extract_append v

@[simp] theorem State.setRtz_acc (s : State) (r : Wide × Byte) : (s.setRtz r).acc = r.1 := extract_append r.1

/-- ACC as a number (10_state.md R20). -/
theorem State.acc_toNat (s : State) : s.acc.toNat = s.accHi.toNat * 2 ^ 64 + s.accLo.toNat := by
  rw [State.acc, BitVec.toNat_append, ← Nat.shiftLeft_add_eq_or_of_lt s.accLo.isLt, Nat.shiftLeft_eq]

/-- The accumulator reads only its two words. -/
theorem State.acc_congr {s t : State} (lo : t.accLo = s.accLo) (hi : t.accHi = s.accHi) : t.acc = s.acc := by
  rw [State.acc, State.acc, lo, hi]

/-- BUSY reads only PHASE (10_state.md R26). -/
theorem State.busy_eq_false (s : State) : s.busy = false ↔ s.phase = .idle := by simp [State.busy]

theorem State.busy_eq_true (s : State) : s.busy = true ↔ s.phase ≠ .idle := by simp [State.busy]

/-- A table byte reads only the table memory and the reset count. -/
theorem tableByte_congr {s t : State} (mem : t.mem = s.mem) (epoch : t.epoch = s.epoch) (a : Nat) :
    tableByte t a = tableByte s a := by
  rw [tableByte, tableByte, mem, epoch]

/-- States with the same table bytes have the same step-table words. -/
theorem stWord_congr {s t : State} (h : SameTables s t) (j : Nat) : stWord t j = stWord s j := by
  simp only [stWord, wordOf, h _]

/-- States with the same table bytes have the same skip-table entries. -/
theorem skEntry_congr {s t : State} (h : SameTables s t) (j : Nat) : skEntry t j = skEntry s j := h _

theorem SameTables.of_mem {s t : State} (mem : t.mem = s.mem) (epoch : t.epoch = s.epoch) : SameTables s t :=
  tableByte_congr mem epoch

theorem SameBlock.refl (s : State) : SameBlock s s := by constructor <;> rfl

theorem SameBlock.symm {s t : State} (h : SameBlock s t) : SameBlock t s := by
  obtain ⟨h1, h2, h3, h4, h5, h6, h7, h8, h9, h10, h11, h12, h13, h14, h15, h16, h17, h18, h19, h20⟩ := h
  constructor <;> symm <;> assumption

theorem SameBlock.trans {s t u : State} (h : SameBlock s t) (g : SameBlock t u) : SameBlock s u := by
  obtain ⟨h1, h2, h3, h4, h5, h6, h7, h8, h9, h10, h11, h12, h13, h14, h15, h16, h17, h18, h19, h20⟩ := h
  obtain ⟨g1, g2, g3, g4, g5, g6, g7, g8, g9, g10, g11, g12, g13, g14, g15, g16, g17, g18, g19, g20⟩ := g
  constructor <;> simp_all

theorem SameBlock.answer (s : State) (r : BusResponse) : SameBlock s (s.answer r) := by constructor <;> rfl

theorem SameBlock.countDraw (s : State) : SameBlock s s.countDraw := by constructor <;> rfl

theorem SameBlock.withHost (s : State) (rest : List HostOp) : SameBlock s (s.withHost rest) := by constructor <;> rfl

theorem SameBlock.withSched (s : State) (rest : List Agent) : SameBlock s (s.withSched rest) := by
  constructor <;> rfl

theorem SameBlock.tables {s t : State} (h : SameBlock s t) : SameTables s t := SameTables.of_mem h.mem h.epoch

end Sys2Proof.Machine
end

