-- ==== Sys2Proof/Laws/Arith.lean ====
section
/-! SUPPORT. What the checked arithmetic, the trailing-zero removal and the fused step can answer. -/

namespace Sys2Proof.Machine

/-- An exact number fits exactly when it is below 2^128, and then it is the value (00_scope.md R12). -/
theorem fits128_eq_some {n : Nat} {v : Wide} : fits128 n = some v ↔ v.toNat = n := by
  unfold fits128
  constructor
  · intro h
    split at h
    · next hn =>
      obtain rfl := Option.some.inj h
      rw [BitVec.toNat_ofNat, Nat.mod_eq_of_lt hn]
    · cases h
  · intro h
    rw [if_pos (h ▸ v.isLt), ← h, BitVec.ofNat_toNat, BitVec.setWidth_eq]

theorem fits128_eq_none {n : Nat} : fits128 n = none ↔ 2 ^ 128 ≤ n := by
  unfold fits128
  split <;> simp <;> omega

/-- All that a checked addition can answer (40_datapath.md R123). -/
theorem checkedAdd_cases (v : Wide) (o : Word) :
    (v.toNat + o.toNat < 2 ^ 128 ∧ ∃ r, checkedAdd v o = some r ∧ r.toNat = v.toNat + o.toNat) ∨
    (2 ^ 128 ≤ v.toNat + o.toNat ∧ checkedAdd v o = none) := by
  cases h : checkedAdd v o with
  | none => exact .inr ⟨fits128_eq_none.mp h, rfl⟩
  | some r =>
    have hr := fits128_eq_some.mp h
    exact .inl ⟨hr ▸ r.isLt, r, rfl, hr⟩

/-- All that a checked multiplication can answer (40_datapath.md R127). -/
theorem checkedMul_cases (v : Wide) (m : Half) :
    (v.toNat * m.toNat < 2 ^ 128 ∧ ∃ r, checkedMul v m = some r ∧ r.toNat = v.toNat * m.toNat) ∨
    (2 ^ 128 ≤ v.toNat * m.toNat ∧ checkedMul v m = none) := by
  cases h : checkedMul v m with
  | none => exact .inr ⟨fits128_eq_none.mp h, rfl⟩
  | some r =>
    have hr := fits128_eq_some.mp h
    exact .inl ⟨hr ▸ r.isLt, r, rfl, hr⟩

/-! Trailing zeros. -/

theorem ctz_le : ∀ (width n : Nat), ctz width n ≤ width
  | 0, _ => Nat.le_refl 0
  | width + 1, n => by
    unfold ctz
    split
    · omega
    · have := ctz_le width (n / 2)
      omega

theorem ctz_zero : ∀ width : Nat, ctz width 0 = width
  | 0 => rfl
  | width + 1 => by simp [ctz, ctz_zero width]

theorem ctz_odd (width n : Nat) (h : n % 2 = 1) : ctz (width + 1) n = 0 := by simp [ctz, h]

/-- The counted zeros divide the number. -/
theorem two_pow_ctz_dvd : ∀ (width n : Nat), 2 ^ ctz width n ∣ n
  | 0, _ => by simp [ctz]
  | width + 1, n => by
    unfold ctz
    split
    · simp
    · next h =>
      have h2 : n = 2 * (n / 2) := by omega
      rw [Nat.pow_succ, Nat.mul_comm]
      exact Dvd.dvd.trans (Nat.mul_dvd_mul_left 2 (two_pow_ctz_dvd width (n / 2))) (Dvd.intro 1 (by omega))

/-- Below 2^width, what is left of a nonzero number is odd. -/
theorem ctz_quotient_odd : ∀ (width n : Nat), 0 < n → n < 2 ^ width → n / 2 ^ ctz width n % 2 = 1
  | 0, n, h0, h => by omega
  | width + 1, n, h0, h => by
    unfold ctz
    split
    · simpa
    · next hn =>
      rw [Nat.pow_succ, Nat.mul_comm, ← Nat.div_div_eq_div_mul]
      exact ctz_quotient_odd width (n / 2) (by omega) (by rw [Nat.pow_succ] at h; omega)

/-- Below 2^width, a nonzero number has fewer than `width` trailing zeros. -/
theorem ctz_lt (width n : Nat) (h0 : 0 < n) (h : n < 2 ^ width) : ctz width n < width := by
  have hd := Nat.le_of_dvd h0 (two_pow_ctz_dvd width n)
  exact (Nat.pow_lt_pow_iff_right (by omega)).mp (Nat.lt_of_le_of_lt hd h)

/-- An odd multiple of 2^c has c trailing zeros. -/
theorem ctz_of_odd_mul : ∀ (width c m : Nat), m % 2 = 1 → c < width → ctz width (m * 2 ^ c) = c
  | 0, _, _, _, h => by omega
  | width + 1, 0, m, hm, _ => by simp [ctz, hm]
  | width + 1, c + 1, m, hm, h => by
    have e : m * 2 ^ (c + 1) = 2 * (m * 2 ^ c) := by rw [Nat.pow_succ]; ring
    unfold ctz
    rw [if_neg (by omega), e, Nat.mul_div_cancel_left _ (by omega), ctz_of_odd_mul width c m hm (by omega)]

/-- The zero value has count 128 (40_datapath.md R132). -/
theorem rtz_zero : rtz 0#128 = (0#128, 128#8) := by
  have e : ctz128 0#128 = 128 := ctz_zero 128
  simp [rtz, e]

theorem ctz128_le (v : Wide) : ctz128 v ≤ 128 := ctz_le 128 _

/-- The value part of `rtz` as a number. -/
theorem rtz_value (v : Wide) : (rtz v).1.toNat = v.toNat / 2 ^ ctz128 v := by
  simp [rtz, Nat.shiftRight_eq_div_pow]

/-- The count part of `rtz` as a number. -/
theorem rtz_count (v : Wide) : (rtz v).2.toNat = ctz128 v := by
  have := ctz128_le v
  simp only [rtz, BitVec.toNat_ofNat]
  omega

/-- All that `rtz` can answer (00_scope.md R14): zero with count 128, or an odd value with its count. -/
theorem rtz_cases (v : Wide) :
    (v = 0#128 ∧ rtz v = (0#128, 128#8)) ∨
    (v ≠ 0#128 ∧ (rtz v).1.toNat % 2 = 1 ∧ (rtz v).2.toNat < 128 ∧
      v.toNat = (rtz v).1.toNat * 2 ^ (rtz v).2.toNat) := by
  by_cases h : v = 0#128
  · subst h
    exact .inl ⟨rfl, rtz_zero⟩
  · have h0 : 0 < v.toNat := by
      rcases Nat.eq_zero_or_pos v.toNat with e | e
      · exact absurd (BitVec.eq_of_toNat_eq (by simpa using e)) h
      · exact e
    refine .inr ⟨h, ?_, ?_, ?_⟩
    · rw [rtz_value]; exact ctz_quotient_odd 128 _ h0 v.isLt
    · rw [rtz_count]; exact ctz_lt 128 _ h0 v.isLt
    · rw [rtz_value, rtz_count]; exact (Nat.div_mul_cancel (two_pow_ctz_dvd 128 _)).symm

/-- `rtz` is determined by its parts: an odd value and its count. -/
theorem rtz_of_odd_mul (v : Wide) (m c : Nat) (hm : m % 2 = 1) (hc : c < 128) (h : v.toNat = m * 2 ^ c) :
    (rtz v).1.toNat = m ∧ (rtz v).2.toNat = c := by
  have e : ctz128 v = c := by rw [ctz128, h]; exact ctz_of_odd_mul 128 c m hm hc
  rw [rtz_value, rtz_count, e, h]
  exact ⟨Nat.mul_div_cancel _ (Nat.two_pow_pos c), rfl⟩

/-! The fused step. -/

/-- The shifted operand of the fused step as a number (41_sequencer.md R150). -/
theorem stepShifted_toNat (s : State) (v : Wide) : (stepShifted s v).toNat = v.toNat / 2 ^ s.k.toNat := by
  simp [stepShifted, Nat.shiftRight_eq_div_pow]

/-- All that a fused step can answer (41_sequencer.md R150): the sum with its zeros removed, or overflow. -/
theorem fusedStep_cases (s : State) (v : Wide) :
    (∃ q : Wide, q.toNat = fusedSum s v ∧ fusedStep s v = some (rtz q)) ∨
    (2 ^ 128 ≤ fusedSum s v ∧ fusedStep s v = none) := by
  unfold fusedStep fusedSum
  rw [← stepShifted_toNat]
  rcases checkedMul_cases (stepShifted s v) (stMult s (stepIndex s v)) with ⟨hp, p, ep, hpv⟩ | ⟨hp, ep⟩
  · have ho : ((stOff s (stepIndex s v)).setWidth 64).toNat = (stOff s (stepIndex s v)).toNat := by
      have := (stOff s (stepIndex s v)).isLt
      simp only [BitVec.toNat_setWidth]
      omega
    rcases checkedAdd_cases p ((stOff s (stepIndex s v)).setWidth 64) with ⟨hq, q, eq, hqv⟩ | ⟨hq, eq⟩
    · exact .inl ⟨q, by rw [hqv, hpv, ho], by simp [ep, eq]⟩
    · exact .inr ⟨by rw [← hpv, ← ho]; exact hq, by simp [ep, eq]⟩
  · exact .inr ⟨by omega, by simp [ep]⟩

end Sys2Proof.Machine
end

