-- ==== Sys2Proof/Laws/Memory.lean ====
section
/-! SUPPORT. The table memory: its operations keep the canonical form, and what a read gives after a write. -/

namespace Sys2Proof.Machine

/-! The canonical form. -/

/-- A memory that rises from `b` rises from every lower address. -/
theorem Memory.risesFrom_mono {a b : Nat} (hab : a ≤ b) : ∀ {m : Memory}, m.risesFrom b = true → m.risesFrom a = true
  | [], _ => rfl
  | c :: m, h => by
    simp only [Memory.risesFrom, Bool.and_eq_true, decide_eq_true_eq] at h ⊢
    exact ⟨by omega, h.2⟩

/-- Writing a byte above `a` keeps a memory that rises from `a` rising from `a`. -/
theorem Memory.insert_risesFrom {a x : Nat} (b : Byte) (hx : a < x) :
    ∀ {m : Memory}, m.risesFrom a = true → (Memory.insert m x b).risesFrom a = true
  | [], _ => by simp [Memory.insert, Memory.risesFrom, hx]
  | c :: m, h => by
    simp only [Memory.risesFrom, Bool.and_eq_true, decide_eq_true_eq] at h
    unfold Memory.insert
    split
    · next hlt => simp [Memory.risesFrom, hx, hlt, h.2]
    · split
      · next heq => subst heq; simpa [Memory.risesFrom, hx] using h.2
      · next hge hne =>
        simp only [Memory.risesFrom, Bool.and_eq_true, decide_eq_true_eq]
        exact ⟨h.1, Memory.insert_risesFrom b (by omega) h.2⟩

/-- Writing one byte keeps the canonical form. -/
theorem Memory.insert_wf (x : Nat) (b : Byte) : ∀ {m : Memory}, m.wf = true → (Memory.insert m x b).wf = true
  | [], _ => rfl
  | c :: m, h => by
    simp only [Memory.wf] at h
    unfold Memory.insert
    split
    · next hlt => simpa [Memory.wf, Memory.risesFrom, hlt] using h
    · split
      · next heq => subst heq; exact h
      · next hge hne => exact Memory.insert_risesFrom b (by omega) h

/-- Writing bytes at rising addresses keeps the canonical form. -/
theorem Memory.store_wf : ∀ (bs : List Byte) (x : Nat) {m : Memory}, m.wf = true → (Memory.store m x bs).wf = true
  | [], _, _, h => h
  | b :: bs, x, _, h => Memory.store_wf bs (x + 1) (Memory.insert_wf x b h)

/-- The memory after reset has the canonical form. -/
theorem State.reset_mem_wf : Memory.wf State.reset.mem = true := rfl

/-! Read after write. -/

/-- What is read after one byte is written. -/
theorem Memory.lookup_insert (m : Memory) (x : Nat) (b : Byte) (a : Nat) :
    (Memory.insert m x b).lookup a = if a = x then some b else m.lookup a := by
  induction m with
  | nil => simp [Memory.insert, Memory.lookup, eq_comm]
  | cons c m ih =>
    simp only [Memory.insert, Memory.lookup]
    split
    · simp [Memory.lookup, eq_comm]
    · split
      · next heq => subst heq; simp only [Memory.lookup, eq_comm]; split <;> rfl
      · next hne =>
        simp only [Memory.lookup, ih]
        split
        · next hca => rw [if_neg (by omega)]
        · rfl

/-- What is read after bytes are written at rising addresses. -/
theorem Memory.lookup_store (bs : List Byte) (m : Memory) (x a : Nat) :
    (Memory.store m x bs).lookup a = if x ≤ a ∧ a < x + bs.length then bs[a - x]? else m.lookup a := by
  induction bs generalizing m x with
  | nil => simp only [Memory.store, List.length_nil]; rw [if_neg (by omega)]
  | cons b bs ih =>
    rw [Memory.store, ih, Memory.lookup_insert]
    simp only [List.length_cons]
    by_cases h : a = x
    · subst h
      rw [if_neg (by omega), if_pos rfl, if_pos (by omega), Nat.sub_self]
      rfl
    · by_cases h2 : x + 1 ≤ a ∧ a < x + 1 + bs.length
      · rw [if_pos h2, if_pos (by omega)]
        have : a - x = (a - (x + 1)) + 1 := by omega
        rw [this, List.getElem?_cons_succ]
      · rw [if_neg h2, if_neg h, if_neg (by omega)]

theorem wordBytes_length (w : Word) : (wordBytes w).length = 8 := rfl

/-- A word's bytes, joined again (20_memory.md R68). -/
theorem wordOf_bytes (w : Word) (f : Nat → Byte) (a : Nat)
    (h : ∀ i < 8, f (a + i) = w.extractLsb' (8 * i) 8) : wordOf f a = w := by
  have h0 : f a = w.extractLsb' 0 8 := h 0 (by omega)
  simp only [wordOf, h0, h 1 (by omega), h 2 (by omega), h 3 (by omega), h 4 (by omega), h 5 (by omega),
    h 6 (by omega), h 7 (by omega)]
  ext i hi
  simp only [BitVec.getElem_append, BitVec.getElem_extractLsb']
  repeat' split
  all_goals first | (rw [← BitVec.getLsbD_eq_getElem]; congr 1; omega)

/-- What a table byte reads after a step-table write. -/
theorem tableByte_writeStep (s : State) (j : Nat) (w : Word) (a : Nat) :
    tableByte (s.writeStep j w) a =
      if stAddr j ≤ a ∧ a < stAddr j + 8 then ((wordBytes w)[a - stAddr j]?).getD (Config.tableByte s.epoch a)
      else tableByte s a := by
  have hlen := wordBytes_length w
  by_cases h : stAddr j ≤ a ∧ a < stAddr j + 8
  · rw [if_pos h, tableByte, State.writeStep, Memory.lookup_store, if_pos (by omega)]
  · rw [if_neg h, tableByte, State.writeStep, Memory.lookup_store, if_neg (by omega), tableByte]

/-- What a table byte reads after a skip-table write. -/
theorem tableByte_writeSkip (s : State) (j : Nat) (w : Word) (a : Nat) :
    tableByte (s.writeSkip j w) a = if a = skAddr j then w.extractLsb' 0 8 else tableByte s a := by
  simp only [tableByte, State.writeSkip, Memory.lookup_insert]
  by_cases h : a = skAddr j
  · rw [if_pos h, if_pos h, Option.getD_some]
  · rw [if_neg h, if_neg h]

/-- A step-table word reads back what was written to it (20_memory.md R64). -/
theorem stWord_writeStep_same (s : State) (j : Nat) (w : Word) : stWord (s.writeStep j w) j = w := by
  refine wordOf_bytes w _ _ fun i hi => ?_
  rw [tableByte_writeStep, if_pos (by omega), Nat.add_sub_cancel_left]
  interval_cases i <;> rfl

/-- A step-table write leaves every other step-table word alone. -/
theorem stWord_writeStep_other (s : State) (j i : Nat) (w : Word) (h : i ≠ j) :
    stWord (s.writeStep j w) i = stWord s i := by
  have key : ∀ n < 8, tableByte (s.writeStep j w) (stAddr i + n) = tableByte s (stAddr i + n) := by
    intro n hn
    rw [tableByte_writeStep, if_neg]
    simp only [stAddr]
    omega
  have h0 : tableByte (s.writeStep j w) (stAddr i) = tableByte s (stAddr i) := key 0 (by omega)
  simp only [stWord, wordOf, h0, key 1 (by omega), key 2 (by omega), key 3 (by omega), key 4 (by omega),
    key 5 (by omega), key 6 (by omega), key 7 (by omega)]

/-- A skip-table entry reads back the low byte written to it (20_memory.md R65). -/
theorem skEntry_writeSkip_same (s : State) (j : Nat) (w : Word) :
    skEntry (s.writeSkip j w) j = w.extractLsb' 0 8 := by
  rw [skEntry, tableByte_writeSkip, if_pos rfl]

/-- A skip-table write leaves every other entry alone. -/
theorem skEntry_writeSkip_other (s : State) (j i : Nat) (w : Word) (h : i ≠ j) :
    skEntry (s.writeSkip j w) i = skEntry s i := by
  rw [skEntry, tableByte_writeSkip, if_neg (by simp only [skAddr]; omega), ← skEntry]

end Sys2Proof.Machine
end

