-- ==== Sys2Proof/Laws/PerInstr.lean ====
section
/-! SUPPORT. The per-command family RoundTrip: a command's word is the opcode of its table row, and decodes to it. -/

namespace Sys2Proof.Laws.RoundTrip

/-- The word of a command is below 6, well formed, and decodes to the command (30_encoding.md R90 to R92). -/
def Statement (i : Instr) : Prop :=
  i.wellFormed = true ∧ (encode i).toNat = i.opcode.toNat ∧ wellFormedWord (encode i) = true ∧
    decode (encode i) = .ok i

theorem nop : Statement .nop := by unfold Statement; decide

theorem add : Statement .add := by unfold Statement; decide

theorem mul : Statement .mul := by unfold Statement; decide

theorem rtz : Statement .rtz := by unfold Statement; decide

theorem step : Statement .step := by unfold Statement; decide

theorem verify : Statement .verify := by unfold Statement; decide

end Sys2Proof.Laws.RoundTrip
end

