-- ==== Sys2Proof/Laws/Step.lean ====
section
/-! SUPPORT. What each meaning, a sequencer step, a bus access and a machine step can answer: said once, so that later
proofs cite these lemmas and do not unfold the definitions. -/

namespace Sys2Proof.Machine

/-! The meanings. -/

/-- All that ADD can answer (40_datapath.md R123). -/
theorem execAdd_cases (s : State) :
    (∃ r : Wide, r.toNat = s.acc.toNat + s.opnd.toNat ∧ execAdd s = .next (commandDone (s.setAcc r) false)) ∨
    (2 ^ 128 ≤ s.acc.toNat + s.opnd.toNat ∧ execAdd s = .next (commandDone s true)) := by
  rcases checkedAdd_cases s.acc (addOperand s) with ⟨_, r, er, hr⟩ | ⟨h, e⟩
  · exact .inl ⟨r, hr, by rw [execAdd, er]; rfl⟩
  · exact .inr ⟨h, by rw [execAdd, e]; rfl⟩

/-- The MUL operand by the number in OPND (40_datapath.md R128). -/
theorem mulOperand_cases (s : State) :
    (2 ^ 32 ≤ s.opnd.toNat ∧ mulOperand s = none) ∨
    (∃ r : Half, r.toNat = s.opnd.toNat ∧ mulOperand s = some r) := by
  have hi : (s.opnd.extractLsb' 32 32).toNat = s.opnd.toNat / 2 ^ 32 := by
    have := s.opnd.isLt
    simp only [BitVec.extractLsb'_toNat, Nat.shiftRight_eq_div_pow]
    omega
  have lo : (s.opnd.extractLsb' 0 32).toNat = s.opnd.toNat % 2 ^ 32 := by simp
  unfold mulOperand
  by_cases h : s.opnd.extractLsb' 32 32 = 0#32
  · have h0 : s.opnd.toNat / 2 ^ 32 = 0 := by rw [← hi, h]; rfl
    exact .inr ⟨_, by rw [lo]; omega, by simp [h]⟩
  · refine .inl ⟨?_, by simp [h]⟩
    by_contra hlt
    apply h
    apply BitVec.eq_of_toNat_eq
    rw [hi]
    show _ = 0
    omega

/-- All that MUL can answer (40_datapath.md R127). -/
theorem execMul_cases (s : State) :
    (2 ^ 32 ≤ s.opnd.toNat ∧ execMul s = .next (signalErr s .operand)) ∨
    (s.opnd.toNat < 2 ^ 32 ∧
      ((∃ r : Wide, r.toNat = s.acc.toNat * s.opnd.toNat ∧ execMul s = .next (commandDone (s.setAcc r) false)) ∨
      (2 ^ 128 ≤ s.acc.toNat * s.opnd.toNat ∧ execMul s = .next (commandDone s true)))) := by
  rcases mulOperand_cases s with ⟨h, e⟩ | ⟨r, hr, e⟩
  · exact .inl ⟨h, by rw [execMul, e]⟩
  · refine .inr ⟨hr ▸ r.isLt, ?_⟩
    rcases checkedMul_cases s.acc r with ⟨_, p, ep, hp⟩ | ⟨h, ep⟩
    · exact .inl ⟨p, by rw [hp, hr], by simp only [execMul, e, ep]; rfl⟩
    · exact .inr ⟨by rw [← hr]; exact h, by simp only [execMul, e, ep]; rfl⟩

/-- All that STEP can answer (41_sequencer.md R152). -/
theorem execStep_cases (s : State) :
    (s.stValid = false ∧ execStep s = .next (signalErr s .noTable)) ∨
    (s.stValid = true ∧
      ((∃ q : Wide, q.toNat = fusedSum s s.acc ∧ execStep s = .next (commandDone (s.setRtz (rtz q)) false)) ∨
      (2 ^ 128 ≤ fusedSum s s.acc ∧ execStep s = .next (commandDone s true)))) := by
  cases h : s.stValid with
  | false => exact .inl ⟨rfl, by simp [execStep, h]⟩
  | true =>
    refine .inr ⟨rfl, ?_⟩
    rcases fusedStep_cases s s.acc with ⟨q, hq, e⟩ | ⟨hq, e⟩
    · exact .inl ⟨q, hq, by simp [execStep, h, e, completeChecked]⟩
    · exact .inr ⟨hq, by simp [execStep, h, e, completeChecked]⟩

/-- All that VERIFY can answer (41_sequencer.md R155 to R157). -/
theorem execVerify_cases (s : State) :
    (s.stValid = true ∧ s.skValid = true ∧ execVerify s = .next (startVerify (commandDone s false))) ∨
    ((s.stValid = false ∨ s.skValid = false) ∧ execVerify s = .next (emptyVerify (commandDone s false))) := by
  cases h1 : s.stValid <;> cases h2 : s.skValid <;> simp [execVerify, h1, h2]

/-- Every command answers a next state: the block never traps (60_exceptions.md R220). -/
theorem exec_next (i : Instr) (s : State) : ∃ t, exec i s = .next t := by
  cases i with
  | nop => exact ⟨_, rfl⟩
  | add => exact ⟨_, rfl⟩
  | mul => rcases execMul_cases s with ⟨_, e⟩ | ⟨_, ⟨_, _, e⟩ | ⟨_, e⟩⟩ <;> exact ⟨_, e⟩
  | rtz => exact ⟨_, rfl⟩
  | step => rcases execStep_cases s with ⟨_, e⟩ | ⟨_, ⟨_, _, e⟩ | ⟨_, e⟩⟩ <;> exact ⟨_, e⟩
  | verify => rcases execVerify_cases s with ⟨_, _, e⟩ | ⟨_, e⟩ <;> exact ⟨_, e⟩

/-- No command writes what `CommandKeeps` lists. -/
theorem exec_keeps (i : Instr) {s t : State} (h : exec i s = .next t) : CommandKeeps s t := by
  cases i with
  | nop => cases h; constructor <;> rfl
  | add =>
    change execAdd s = .next t at h
    rcases execAdd_cases s with ⟨_, _, e⟩ | ⟨_, e⟩ <;> (rw [e] at h; cases h; constructor <;> rfl)
  | mul =>
    change execMul s = .next t at h
    rcases execMul_cases s with ⟨_, e⟩ | ⟨_, ⟨_, _, e⟩ | ⟨_, e⟩⟩ <;> (rw [e] at h; cases h; constructor <;> rfl)
  | rtz => cases h; constructor <;> rfl
  | step =>
    change execStep s = .next t at h
    rcases execStep_cases s with ⟨_, e⟩ | ⟨_, ⟨_, _, e⟩ | ⟨_, e⟩⟩ <;> (rw [e] at h; cases h; constructor <;> rfl)
  | verify =>
    change execVerify s = .next t at h
    rcases execVerify_cases s with ⟨_, _, e⟩ | ⟨_, e⟩ <;> (rw [e] at h; cases h; constructor <;> rfl)

/-! The sequencer. -/

/-- All that an OUTER step can do (41_sequencer.md R159). -/
theorem outerStep_cases (s : State) :
    (s.endReg.toNat < s.cursor.toNat ∧ outerStep s = finishVerify s s.endReg .complete) ∨
    (s.cursor.toNat ≤ s.endReg.toNat ∧
      outerStep s = (s.setAcc (s.cursor.setWidth 128)).setPhase .inner) := by
  unfold outerStep
  by_cases h : s.cursor.toNat > s.endReg.toNat
  · exact .inl ⟨h, if_pos h⟩
  · exact .inr ⟨by omega, if_neg h⟩

/-- All that an INNER step can do (41_sequencer.md R160, R161). -/
theorem innerStep_cases (s : State) :
    (s.acc.toNat < s.cursor.toNat ∧ innerStep s = leaveInner s) ∨
    (s.cursor.toNat ≤ s.acc.toNat ∧
      ((∃ q : Wide, q.toNat = fusedSum s s.acc ∧ fusedStep s s.acc = some (rtz q) ∧ innerStep s = s.setRtz (rtz q)) ∨
      (2 ^ 128 ≤ fusedSum s s.acc ∧ fusedStep s s.acc = none ∧
        innerStep s = (finishVerify s (s.cursor - 1#64) .overflow).raiseOvf))) := by
  unfold innerStep
  by_cases h : s.acc.toNat < s.cursor.toNat
  · exact .inl ⟨h, if_pos h⟩
  · refine .inr ⟨by omega, ?_⟩
    rw [if_neg h]
    rcases fusedStep_cases s s.acc with ⟨q, hq, e⟩ | ⟨hq, e⟩
    · exact .inl ⟨q, hq, e, by rw [e]⟩
    · exact .inr ⟨hq, e, by rw [e]⟩

/-- The wrapping cursor addition as a number (41_sequencer.md R163). -/
theorem skipTarget_toNat (s : State) (c : Word) :
    (skipTarget s c).toNat = (c.toNat + (skipAmount s c).toNat) % 2 ^ 64 := by
  have := (skipAmount s c).isLt
  simp only [skipTarget, BitVec.toNat_add, BitVec.toNat_setWidth]
  omega

/-- The forbidden residues as numbers (41_sequencer.md R164). -/
theorem forbiddenResidue_eq_true (n : Word) :
    forbiddenResidue n = true ↔ n.toNat % 9 = 2 ∨ n.toNat % 9 = 4 ∨ n.toNat % 9 = 5 ∨ n.toNat % 9 = 8 := by
  simp [forbiddenResidue, Config.forbiddenResidues]

/-- All that a SKIP step can do (41_sequencer.md R163). -/
theorem skipStep_cases (s : State) :
    ((skipTarget s s.cursor).toNat < s.prev.toNat ∧ skipStep s = finishVerify s s.prev .wrap) ∨
    (s.prev.toNat ≤ (skipTarget s s.cursor).toNat ∧ skipStep s = advanceCursor s (skipTarget s s.cursor)) := by
  unfold skipStep
  by_cases h : (skipTarget s s.cursor).toNat < s.prev.toNat
  · exact .inl ⟨h, if_pos h⟩
  · exact .inr ⟨by omega, if_neg h⟩

/-- The phase after a skip that did not wrap (41_sequencer.md R164). -/
theorem advanceCursor_phase_cases (s : State) (n : Word) :
    (forbiddenResidue n = true ∧ (advanceCursor s n).phase = .skip) ∨
    (forbiddenResidue n = false ∧ (advanceCursor s n).phase = .outer) := by
  cases h : forbiddenResidue n <;> simp [advanceCursor, h]

/-- No sequencer step writes what `SequencerKeeps` lists. -/
theorem seqStep_keeps (s : State) : SequencerKeeps s (seqStep s) := by
  unfold seqStep
  split
  · constructor <;> rfl
  · rcases outerStep_cases s with ⟨_, e⟩ | ⟨_, e⟩ <;> (rw [e]; constructor <;> rfl)
  · rcases innerStep_cases s with ⟨_, e⟩ | ⟨_, ⟨_, _, _, e⟩ | ⟨_, _, e⟩⟩ <;> (rw [e]; constructor <;> rfl)
  · rcases skipStep_cases s with ⟨_, e⟩ | ⟨_, e⟩ <;> (rw [e]; constructor <;> rfl)

/-- An idle sequencer does nothing, however often (41_sequencer.md R158). -/
theorem seqSteps_idle : ∀ (n : Nat) {s : State}, s.phase = .idle → seqSteps n s = s
  | 0, _, _ => rfl
  | n + 1, s, h => by
    have e : seqStep s = s := by simp [seqStep, h]
    rw [seqSteps, e]
    exact seqSteps_idle n h

theorem seqSteps_add : ∀ (m n : Nat) (s : State), seqSteps (m + n) s = seqSteps n (seqSteps m s)
  | 0, n, s => by rw [Nat.zero_add]; rfl
  | m + 1, n, s => by
    rw [Nat.add_right_comm]
    exact seqSteps_add m n (seqStep s)

/-! Decoding and the bus. -/

/-- A refused word signals ERR(ILLEGAL); any other is its command (30_encoding.md R91). -/
theorem issueCommand_cases (s : State) (w : Word) :
    (∃ i, decode w = .ok i ∧ issueCommand s w = exec i s) ∨
    (∃ e, decode w = .error e ∧ issueCommand s w = .next (signalErr s .illegal)) := by
  cases h : decode w with
  | ok i => exact .inl ⟨i, rfl, by rw [issueCommand, h]⟩
  | error e => exact .inr ⟨e, rfl, by rw [issueCommand, h]⟩

/-- All that an admitted read can do (20_memory.md R71): the answer, and a free draw when the block is busy. -/
theorem performRead_cases (s : State) (loc : Location) :
    (s.phase ≠ .idle ∧ loc ≠ .register .status ∧
      performRead s loc = (s.answer (.readData (Config.busyRead s.draws))).countDraw) ∨
    ((s.phase = .idle ∨ loc = .register .status) ∧
      performRead s loc = s.answer (.readData (readLocation s loc))) := by
  unfold performRead
  by_cases hb : s.phase = .idle
  · refine .inr ⟨.inl hb, ?_⟩
    simp [State.busy, hb]
  · by_cases hl : loc = .register .status
    · exact .inr ⟨.inr hl, by simp [hl]⟩
    · exact .inl ⟨hb, hl, by simp [State.busy, hb, hl]⟩

/-- A read touches neither the block nor what is pending (20_memory.md R69). -/
theorem performRead_keeps (s : State) (loc : Location) :
    SameBlock s (performRead s loc) ∧ (performRead s loc).host = s.host ∧ (performRead s loc).sched = s.sched := by
  rcases performRead_cases s loc with ⟨_, _, e⟩ | ⟨_, e⟩ <;> rw [e]
  · exact ⟨(SameBlock.answer s _).trans (SameBlock.countDraw _), rfl, rfl⟩
  · exact ⟨SameBlock.answer s _, rfl, rfl⟩

/-- All that an admitted write can do (20_memory.md R70, 30_encoding.md R91). -/
theorem performWrite_cases (s : State) (loc : Location) (w : Word) :
    (s.phase ≠ .idle ∧ performWrite s loc w = .next (s.answer .writeDone)) ∨
    (s.phase = .idle ∧ loc = .register .cmd ∧ performWrite s loc w = issueCommand (s.answer .writeDone) w) ∨
    (s.phase = .idle ∧ loc ≠ .register .cmd ∧
      performWrite s loc w = .next (writeLocation (s.answer .writeDone) loc w)) := by
  unfold performWrite
  by_cases hb : s.phase = .idle
  · by_cases hl : loc = .register .cmd
    · exact .inr (.inl ⟨hb, hl, by simp [State.busy, hb, hl]⟩)
    · exact .inr (.inr ⟨hb, hl, by simp [State.busy, hb, hl]⟩)
  · exact .inl ⟨hb, by simp [State.busy, hb]⟩

/-- An admitted write of an idle block always answers a next state. -/
theorem performWrite_next (s : State) (loc : Location) (w : Word) : ∃ t, performWrite s loc w = .next t := by
  rcases performWrite_cases s loc w with ⟨_, e⟩ | ⟨_, _, e⟩ | ⟨_, _, e⟩
  · exact ⟨_, e⟩
  · rcases issueCommand_cases (s.answer .writeDone) w with ⟨i, _, f⟩ | ⟨_, _, f⟩
    · obtain ⟨t, g⟩ := exec_next i (s.answer .writeDone)
      exact ⟨t, by rw [e, f, g]⟩
    · exact ⟨_, by rw [e, f]⟩
  · exact ⟨_, e⟩

/-- An access is admitted exactly when it moves 8 bytes at a multiple of 8 (20_memory.md R67). -/
theorem admitted_eq_true (a : Access) : a.admitted = true ↔ a.size = 8 ∧ a.addr.toNat % 8 = 0 := by
  simp [Access.admitted]

/-- Whose turn it is (00_scope.md R17, 41_sequencer.md R158): the host moves when the block is idle or `sched` says so,
the sequencer in every other state of a running VERIFY. -/
theorem step_cases (s : State) :
    (s.phase = .idle ∧ step s = hostStep (s.withSched s.sched)) ∨
    (s.phase ≠ .idle ∧ ∃ rest,
      ((s.host ≠ [] ∧ s.sched = .host :: rest ∧ step s = hostStep (s.withSched rest)) ∨
      ((s.host = [] ∧ rest = s.sched ∨ s.sched = [] ∧ rest = [] ∨ s.host ≠ [] ∧ s.sched = .sequencer :: rest) ∧
        step s = .next (seqStep (s.withSched rest))))) := by
  unfold step machineStep chooseAgent
  by_cases hb : s.phase = .idle
  · exact .inl ⟨hb, by simp [State.busy, hb]⟩
  · have hbusy : s.busy = true := (State.busy_eq_true s).mpr hb
    refine .inr ⟨hb, ?_⟩
    cases hh : s.host with
    | nil => exact ⟨s.sched, .inr ⟨.inl ⟨rfl, rfl⟩, by simp [hbusy]⟩⟩
    | cons op ops =>
      cases hs : s.sched with
      | nil => exact ⟨[], .inr ⟨.inr (.inl ⟨rfl, rfl⟩), by simp [hbusy]⟩⟩
      | cons a rest =>
        cases a with
        | host => exact ⟨rest, .inl ⟨by simp, rfl, by simp [hbusy]⟩⟩
        | sequencer => exact ⟨rest, .inr ⟨.inr (.inr ⟨by simp, rfl⟩), by simp [hbusy]⟩⟩

/-- All that a step of the host agent can do (20_memory.md R67 to R71, 70_reset_and_hazards.md R250). -/
theorem hostStep_cases (s : State) :
    (s.host = [] ∧ hostStep s = .next s) ∨
    (∃ a rest, s.host = .access a :: rest ∧ a.admitted = false ∧ hostStep s = .fault .busError) ∨
    (∃ addr rest, s.host = .access (.read addr 8) :: rest ∧ addr.toNat % 8 = 0 ∧
      hostStep s = .next (performRead (s.withHost rest) (locate addr))) ∨
    (∃ addr w rest, s.host = .access (.write addr 8 w) :: rest ∧ addr.toNat % 8 = 0 ∧
      hostStep s = performWrite (s.withHost rest) (locate addr) w) ∨
    (∃ rest, s.host = .poll :: rest ∧ hostStep s =
      .next ((if s.busy then s else s.withHost rest).answer (.readData (statusWord s)))) ∨
    (∃ rest, s.host = .reset :: rest ∧ hostStep s = .next (applyReset (s.withHost rest))) := by
  unfold hostStep
  cases hh : s.host with
  | nil => exact .inl ⟨rfl, rfl⟩
  | cons op rest =>
    cases op with
    | poll => exact .inr (.inr (.inr (.inr (.inl ⟨rest, rfl, rfl⟩))))
    | reset => exact .inr (.inr (.inr (.inr (.inr ⟨rest, rfl, rfl⟩))))
    | access a =>
      cases ha : a.admitted with
      | false => exact .inr (.inl ⟨a, rest, rfl, ha, by simp [performAccess, ha]⟩)
      | true =>
        obtain ⟨hsize, haddr⟩ := (admitted_eq_true a).mp ha
        cases a with
        | read addr n =>
          obtain rfl : n = 8 := hsize
          exact .inr (.inr (.inl ⟨addr, rest, rfl, haddr, by simp [performAccess, ha]⟩))
        | write addr n w =>
          obtain rfl : n = 8 := hsize
          exact .inr (.inr (.inr (.inl ⟨addr, w, rest, rfl, haddr, by simp [performAccess, ha]⟩)))

end Sys2Proof.Machine
end

