-- ==== Sys2Proof/Tests/Slice0.lean ====
section
/-! SUPPORT. Tests of the model on fixed values, and for each statement with hypotheses a state that meets them. Expected
values are those of 95_test_vectors.md (the vector's name stands in the docstring) or are counted by hand from the rules. -/

namespace Sys2Proof.Tests

open Sys2Proof.Machine

/-! States. -/

/-- An instance with SKIP_LOG2_MAX = 18 after reset. -/
def fresh : State := State.resetWith 18

/-- `fresh` with ACC and OPND. -/
def acc (hi lo opnd : Word) : State := { fresh with accHi := hi, accLo := lo, opnd := opnd }

/-- `fresh` with both tables present, K = 3 and the reference entry 3, L = 0 and the entry `e`. -/
def loaded (e : Word) : State :=
  ({ fresh with k := 3#5, stValid := true, skValid := true }.writeStep 3 0x0000000400000009#64).writeSkip 0 e

/-- The reference step table for K = 1 (48_host_tables.md R191): (1, 0) and (3, 2). -/
def refOne : State :=
  ({ fresh with k := 1#5, stValid := true }.writeStep 0 0x0000000000000001#64).writeStep 1 0x0000000200000003#64

/-- The reference step table for K = 0 (48_host_tables.md R192): (1, 0) and (3, 1). -/
def refZero : State :=
  ({ fresh with stValid := true }.writeStep 0 0x0000000000000001#64).writeStep 1 0x0000000100000003#64

/-- K = 1 with every entry (2^32 - 1, 2^32 - 1) (41_sequencer.md R166). -/
def ones : State :=
  ({ fresh with k := 1#5, stValid := true, skValid := true }.writeStep 0 0xFFFFFFFFFFFFFFFF#64).writeStep 1
    0xFFFFFFFFFFFFFFFF#64

/-- `s` with one pending operation of the host. -/
def pending (s : State) (op : HostOp) : State := { s with host := [op] }

/-- `s` in `p`, with the host's operation `op` next. -/
def busyHost (s : State) (p : Phase) (op : HostOp) : State :=
  { s with phase := p, host := [op], sched := [.host] }

/-- A write of `w` to the address `a`. -/
def wr (a : Addr) (w : Word) : HostOp := .access (.write a 8 w)

/-- A read of the address `a`. -/
def rd (a : Addr) : HostOp := .access (.read a 8)

/-- The state of a next outcome. -/
def next? : Host.Outcome State Fault Refusal → Option State
  | .next s => some s
  | .fault _ => none
  | .refused _ => none

theorem moves_idle (s : State) (op : HostOp) (h : s.phase = .idle) :
    HostMoves (pending s op) op { s with host := [] } := ⟨[], rfl, .inl ⟨h, rfl⟩⟩

theorem moves_busy (s : State) (p : Phase) (op : HostOp) (h : p ≠ .idle) :
    HostMoves (busyHost s p op) op { s with phase := p, host := [], sched := [] } :=
  ⟨[], rfl, .inr ⟨h, [], rfl, rfl⟩⟩

theorem moves_sequencer (s : State) (h : s.phase ≠ .idle) (hh : s.host = []) : SequencerMoves s s :=
  ⟨h, .inl ⟨hh, rfl⟩⟩

/-! Well-formedness and decoding. -/

/-- A word the reserved-bit check refuses. -/
theorem test_wellFormed_reservedZero :
    WordCheck.passes 0x101#64 .reservedZero = false ∧ wellFormedWord 0x101#64 = false := by decide

/-- A word the opcode check refuses. -/
theorem test_wellFormed_opcodeAssigned :
    WordCheck.passes 0x06#64 .opcodeAssigned = false ∧ wellFormedWord 0x06#64 = false := by decide

theorem test_decode_nop :
    decode 0b0000000000000000000000000000000000000000000000000000000000000000#64 = .ok .nop := by decide
theorem test_decode_add :
    decode 0b0000000000000000000000000000000000000000000000000000000000000001#64 = .ok .add := by decide
theorem test_decode_mul :
    decode 0b0000000000000000000000000000000000000000000000000000000000000010#64 = .ok .mul := by decide
theorem test_decode_rtz :
    decode 0b0000000000000000000000000000000000000000000000000000000000000011#64 = .ok .rtz := by decide
theorem test_decode_step :
    decode 0b0000000000000000000000000000000000000000000000000000000000000100#64 = .ok .step := by decide
theorem test_decode_verify :
    decode 0b0000000000000000000000000000000000000000000000000000000000000101#64 = .ok .verify := by decide

/-- V-DEC-2 to V-DEC-5: none of the words is a command. -/
theorem test_decode_illegal :
    decode 0x06#64 = .error .opcode ∧ decode 0xFF#64 = .error .opcode ∧
    decode 0x0000000000000101#64 = .error .reservedBits ∧
    decode 0x8000000000000005#64 = .error .reservedBits := by decide

/-- V-DEC-2: STATUS after the word 0x06. -/
theorem test_illegal_status :
    ((next? (step (pending fresh (wr 0x000#32 0x06#64)))).map statusWord) = some 0x10#64 := by decide

/-! The commands. -/

/-- V-DEC-1: OVF is cleared. -/
theorem test_nop : (next? (exec .nop { fresh with ovf := true })).map statusWord = some 0#64 := by decide

/-- V-ADD-3: the carry into the high word. -/
theorem test_add_carry :
    (next? (exec .add (acc 0#64 0xFFFFFFFFFFFFFFFF#64 1#64))).map (fun t => (t.accHi, t.accLo, statusWord t)) =
      some (1#64, 0#64, 0#64) := by decide

/-- V-ADD-4: overflow leaves ACC as it was. -/
theorem test_add_overflow :
    (next? (exec .add (acc 0xFFFFFFFFFFFFFFFF#64 0xFFFFFFFFFFFFFFFF#64 1#64))).map
      (fun t => (t.accHi, t.accLo, statusWord t)) =
      some (0xFFFFFFFFFFFFFFFF#64, 0xFFFFFFFFFFFFFFFF#64, 2#64) := by decide

/-- V-MUL-1: the carry into the high word. -/
theorem test_mul_carry :
    (next? (exec .mul (acc 0#64 0xFFFFFFFFFFFFFFFF#64 3#64))).map (fun t => (t.accHi, t.accLo, statusWord t)) =
      some (2#64, 0xFFFFFFFFFFFFFFFD#64, 0#64) := by decide

/-- V-MUL-2: overflow by the carry alone. -/
theorem test_mul_overflow :
    (next? (exec .mul (acc 0x5555555555555555#64 0xFFFFFFFFFFFFFFFF#64 3#64))).map
      (fun t => (t.accHi, t.accLo, statusWord t)) =
      some (0x5555555555555555#64, 0xFFFFFFFFFFFFFFFF#64, 2#64) := by decide

/-- V-RTZ-4. -/
theorem test_rtz_count :
    (next? (exec .rtz (acc 0#64 0xA0#64 0#64))).map (fun t => (t.accHi, t.accLo, t.tzcnt)) =
      some (0#64, 5#64, 5#8) := by decide

/-- V-RTZ-1: zero has 128 trailing zeros. -/
theorem test_rtz_zero : (rtz (0#64 ++ 0#64)).2 = 128#8 := by rw [show (0#64 ++ 0#64) = 0#128 from rfl, rtz_zero]

/-- V-STEP-3: 27 → (31, 0). -/
theorem test_step_reference :
    (next? (exec .step { loaded 4#64 with accLo := 27#64 })).map (fun t => (t.accHi, t.accLo, t.tzcnt, statusWord t)) =
      some (0#64, 31#64, 0#8, 0#64) := by decide

/-- V-STEP-11: no step table. -/
theorem test_step_noTable : (next? (exec .step fresh)).map statusWord = some 0x30#64 := by decide

/-- V-VER-11: a table absent. -/
theorem test_verify_empty :
    (next? (exec .verify { fresh with stValid := true, result := 7#64 })).map (fun t => (t.result, statusWord t)) =
      some (0#64, 0x400#64) := by decide

/-- V-VER-5b: START > END completes in one step of the sequencer with CURSOR 11. -/
theorem test_verify_reversed :
    (next? (exec .verify { loaded 4#64 with startReg := 10#64, endReg := 5#64 })).map
      (fun t => ((seqStep t).result, (seqStep t).cursor, statusWord (seqStep t))) =
      some (5#64, 11#64, 0x100#64) := by decide

/-- V-VER-7: a skip of 8 from 2^64 - 5 wraps. -/
theorem test_skip_wraps :
    statusWord (seqStep { loaded 8#64 with phase := .skip, cursor := 0xFFFFFFFFFFFFFFFB#64, prev := 0xFFFFFFFFFFFFFFFB#64 })
      = 0x300#64 := by decide

/-- V-VER-4b: the cursor skips from 27 past 31 and 35, whose residues mod 9 are 4 and 8, to 39. -/
theorem test_skip_chain :
    (fun t => (t.cursor, t.phase)) (seqSteps 3 { loaded 4#64 with phase := .skip, cursor := 27#64, prev := 27#64 }) =
      (39#64, .outer) := by decide

/-- S3: the reference entries for K = 0, as words. -/
theorem test_reference_zero :
    (refStepTable 0).map stepEntryWord = [0x0000000000000001#64, 0x0000000100000003#64] := by decide

/-- 95_test_vectors.md section 4: entries of the reference tables for K = 3. -/
theorem test_reference_three : refStepEntry 3 3 = (9, 4) ∧ refStepEntry 3 7 = (27, 26) := by decide

/-- 20_memory.md R68: the bytes of a step-table entry, the least significant first. -/
theorem test_memory_bytes :
    ({ fresh with mem := [] }.writeStep 0 0x0807060504030201#64).mem.map Prod.snd =
      [1#8, 2#8, 3#8, 4#8, 5#8, 6#8, 7#8, 8#8] := by decide

/-! Witnesses: for each statement with hypotheses, values that meet them all. -/

theorem witness_DecodeAndEncodeAgree :
    Instr.wellFormed .verify = true ∧ decode 5#64 = .ok .verify ∧ wellFormedWord 5#64 = true ∧
    wellFormedWord 0#64 = true := by decide

theorem witness_IllegalWordsSignalIllegal :
    (0x100#64).toNat / 2 ^ 8 ≠ 0 ∧ 0x06 ≤ (0x06#64).toNat % 2 ^ 8 ∧ 0x06 ≤ (0xFF#64).toNat % 2 ^ 8 ∧
    (pending fresh (wr Reg.cmd.addr 0x06#64)).phase = .idle ∧
    HostMoves (pending fresh (wr Reg.cmd.addr 0x06#64)) (wr Reg.cmd.addr 0x06#64) { fresh with host := [] } :=
  ⟨by decide, by decide, by decide, rfl, moves_idle fresh _ rfl⟩

theorem witness_StepRunsTheDecodedCommand :
    (pending fresh (wr Reg.cmd.addr 5#64)).phase = .idle ∧
    HostMoves (pending fresh (wr Reg.cmd.addr 5#64)) (wr Reg.cmd.addr 5#64) { fresh with host := [] } ∧
    Instr.wellFormed .verify = true ∧ decode 5#64 = .ok .verify :=
  ⟨rfl, moves_idle fresh _ rfl, rfl, by decide⟩

/-- The largest sum that fits and the smallest that does not. -/
theorem witness_AddIsExactOrOverflows :
    (0xFFFFFFFFFFFFFFFF#64).toNat * 2 ^ 64 + (0#64).toNat + (0xFFFFFFFFFFFFFFFF#64).toNat < 2 ^ 128 ∧
    2 ^ 128 ≤ (0xFFFFFFFFFFFFFFFF#64).toNat * 2 ^ 64 + (1#64).toNat + (0xFFFFFFFFFFFFFFFF#64).toNat := by decide

theorem witness_AddCornerCases :
    (acc 1#64 2#64 0#64).opnd = 0#64 ∧
    (2 ^ 64 ≤ (acc 0xFFFFFFFFFFFFFFFE#64 0xFFFFFFFFFFFFFFFF#64 1#64).accLo.toNat + (1#64).toNat ∧
      (0xFFFFFFFFFFFFFFFE#64).toNat < 2 ^ 64 - 1) ∧
    (2 ^ 64 ≤ (0xFFFFFFFFFFFFFFFF#64).toNat + (1#64).toNat ∧ (0xFFFFFFFFFFFFFFFF#64).toNat = 2 ^ 64 - 1) ∧
    (0xFFFFFFFFFFFFFFFF#64).toNat * 2 ^ 64 + (0#64).toNat ≤ 2 ^ 128 - 2 ^ 64 ∧
    2 ^ 128 - 2 ^ 64 < (0xFFFFFFFFFFFFFFFF#64).toNat * 2 ^ 64 + (1#64).toNat := by decide

/-- OPND at 2^32 and at 2^32 - 1; a product that fits and one of 2^128. -/
theorem witness_MulIsExactOrOverflowsOrRefuses :
    (0x100000000#64).extractLsb' 32 32 ≠ 0#32 ∧
    ((0xFFFFFFFF#64).extractLsb' 32 32 = 0#32 ∧
      ((0x100000000#64).toNat * 2 ^ 64 + (0#64).toNat) * ((0xFFFFFFFF#64).extractLsb' 0 32).toNat < 2 ^ 128) ∧
    ((2#64).extractLsb' 32 32 = 0#32 ∧
      2 ^ 128 ≤ ((0x8000000000000000#64).toNat * 2 ^ 64 + (0#64).toNat) * ((2#64).extractLsb' 0 32).toNat) := by decide

/-- One state for each clause; the clauses on fixed values are met by those values. -/
theorem witness_MulCornerCases :
    (acc 7#64 8#64 0#64).opnd = 0#64 ∧ (acc 7#64 8#64 1#64).opnd = 1#64 ∧
    ((acc 0#64 0#64 0xFFFFFFFF#64).accHi = 0#64 ∧ (0xFFFFFFFF#64).toNat < 2 ^ 32) ∧
    ((2#64).toNat < 2 ^ 32 ∧ 2 ^ 64 ≤ (0x8000000000000000#64).toNat * (2#64).toNat) ∧
    ((3#64).toNat < 2 ^ 32 ∧ (0x5555555555555555#64).toNat * (3#64).toNat < 2 ^ 64 ∧
      2 ^ 64 ≤ (0x5555555555555555#64).toNat * (3#64).toNat + (0xFFFFFFFFFFFFFFFF#64).toNat * (3#64).toNat / 2 ^ 64) ∧
    (acc 7#64 8#64 0x100000000#64).opnd = 0x100000000#64 := by decide

theorem witness_RtzRemovesAllTrailingZeros :
    (acc 0#64 0#64 0#64).accHi.toNat * 2 ^ 64 + (acc 0#64 0#64 0#64).accLo.toNat = 0 ∧
    (acc 0x8000000000000000#64 0#64 0#64).accHi.toNat * 2 ^ 64 + (acc 0#64 0#64 0#64).accLo.toNat ≠ 0 := by decide

/-- ACC odd, ACC = 2^0 and 2^127, a zero low word, and zero. -/
theorem witness_RtzCornerCases :
    (acc 0#64 1#64 0#64).accLo.toNat % 2 = 1 ∧
    (0 < 128 ∧ (0#64).toNat * 2 ^ 64 + (1#64).toNat = 2 ^ 0) ∧
    (127 < 128 ∧ (0x8000000000000000#64).toNat * 2 ^ 64 + (0#64).toNat = 2 ^ 127) ∧
    ((acc 1#64 0#64 0#64).accLo = 0#64 ∧ (acc 1#64 0#64 0#64).accHi ≠ 0#64) ∧
    ((acc 0#64 0#64 0#64).accHi = 0#64 ∧ (acc 0#64 0#64 0#64).accLo = 0#64) := by decide

/-- An odd and a zero result. -/
theorem witness_RtzIsIdempotentOnTheValue :
    (∃ t, exec .rtz (acc 0#64 8#64 0#64) = .next t ∧ t.accLo.toNat % 2 = 1) ∧
    (∃ t, exec .rtz (acc 0#64 0#64 0#64) = .next t ∧ t.accLo.toNat % 2 = 0) := by
  refine ⟨⟨_, rfl, by decide⟩, ⟨_, rfl, ?_⟩⟩
  have h : rtz (acc 0#64 0#64 0#64).acc = (0#128, 128#8) := by
    rw [show (acc 0#64 0#64 0#64).acc = 0#128 by decide, rtz_zero]
  rw [h]
  decide

/-- No table; a step that fits; V-STEP-9 (the product overflows) and V-STEP-8 (the sum overflows). -/
theorem witness_StepIsTheFusedStep :
    fresh.stValid = false ∧
    ((loaded 4#64).stValid = true ∧ 27 / 2 ^ 3 * (stMult (loaded 4#64) (27 % 2 ^ max 3 1)).toNat < 2 ^ 128 ∧
      27 / 2 ^ 3 * (stMult (loaded 4#64) 3).toNat + (stOff (loaded 4#64) 3).toNat = 31) ∧
    (refZero.stValid = true ∧ 2 ^ 128 ≤ 0x55555555555555555555555555555557 / 2 ^ 0 * (stMult refZero 1).toNat) ∧
    (0x55555555555555555555555555555555 / 2 ^ 0 * (stMult refZero 1).toNat < 2 ^ 128 ∧
      2 ^ 128 ≤ 0x55555555555555555555555555555555 / 2 ^ 0 * (stMult refZero 1).toNat + (stOff refZero 1).toNat) := by
  decide

/-- One state for each clause: ACC < 2^K, ACC = 0 and an even ACC with the K = 0 table, a zero multiplier, V-STEP-9, and
27 with K = 3. -/
theorem witness_StepCornerCases :
    ({ loaded 4#64 with accLo := 7#64 }.stValid = true ∧ { loaded 4#64 with accLo := 7#64 }.acc.toNat < 2 ^ 3) ∧
    (refZero.acc = 0#128 ∧ stMult refZero 0 = 1#32 ∧ stOff refZero 0 = 0#32) ∧
    (refZero.k = 0#5 ∧ { refZero with accLo := 6#64 }.acc.toNat % 2 = 0) ∧
    stMult ({ loaded 4#64 with accLo := 27#64 }.writeStep 3 0#64) (27 % 2 ^ max 3 1) = 0#32 ∧
    2 ^ 128 ≤ 0x55555555555555555555555555555557 / 2 ^ refZero.k.toNat * (stMult refZero 1).toNat ∧
    ((loaded 4#64).k = 3#5 ∧ { loaded 4#64 with accLo := 27#64 }.acc = 27#128 ∧ stMult (loaded 4#64) 3 = 9#32 ∧
      stOff (loaded 4#64) 3 = 4#32) := by decide

theorem witness_VerifyIsAccepted : (loaded 4#64).stValid = true ∧ (loaded 4#64).skValid = true := by decide

theorem witness_VerifyWithoutTablesIsEmpty :
    fresh.phase = .idle ∧ { fresh with skValid := true }.stValid = false ∧ { fresh with stValid := true }.skValid = false := by
  decide

theorem witness_ShortCommandsKeepTheRest : Instr.step ≠ .verify := by decide

/-- An overflow and an error. -/
theorem witness_ErrorsAndOverflowsArePrecise :
    (∃ t, exec .add (acc 0xFFFFFFFFFFFFFFFF#64 0xFFFFFFFFFFFFFFFF#64 1#64) = .next t ∧ t.ovf = true) ∧
    (∃ t, exec .mul (acc 0#64 1#64 0x100000000#64) = .next t ∧ t.err ≠ .none) :=
  ⟨⟨_, rfl, by decide⟩, ⟨_, rfl, by decide⟩⟩

/-- A write to each of the five registers. -/
theorem witness_PlainRegisterWrites :
    ∀ a ∈ [0x010#32, 0x018#32, 0x020#32, 0x048#32, 0x050#32],
      (pending fresh (wr a 9#64)).phase = .idle ∧
      HostMoves (pending fresh (wr a 9#64)) (wr a 9#64) { fresh with host := [] } :=
  fun _ _ => ⟨rfl, moves_idle fresh _ rfl⟩

theorem witness_PlainRegistersReadBack :
    { fresh with host := [wr 0x010#32 9#64, rd 0x010#32] }.host = [wr 0x010#32 9#64, rd 0x010#32] ∧
    fresh.phase = .idle := ⟨rfl, rfl⟩

/-- A read of each of the seven registers. -/
theorem witness_RegistersReadTheirFields :
    fresh.phase = .idle ∧
    ∀ a ∈ [0x018#32, 0x020#32, 0x028#32, 0x030#32, 0x038#32, 0x058#32, 0x060#32],
      HostMoves (pending fresh (rd a)) (rd a) { fresh with host := [] } :=
  ⟨rfl, fun _ _ => moves_idle fresh _ rfl⟩

/-- The clamp's bound and the word above it. -/
theorem witness_KcfgClampsAtTwenty :
    fresh.phase = .idle ∧ ∀ w ∈ [20#64, 21#64],
      HostMoves (pending fresh (wr 0x030#32 w)) (wr 0x030#32 w) { fresh with host := [] } :=
  ⟨rfl, fun _ _ => moves_idle fresh _ rfl⟩

/-- SKIP_LOG2_MAX = 18 and a word with only its top bit set. -/
theorem witness_SkcfgClampsAtTheParameter :
    fresh.phase = .idle ∧ ∀ w ∈ [18#64, 0x8000000000000000#64],
      HostMoves (pending fresh (wr 0x038#32 w)) (wr 0x038#32 w) { fresh with host := [] } :=
  ⟨rfl, fun _ _ => moves_idle fresh _ rfl⟩

theorem witness_TvalidHoldsTwoBits :
    fresh.phase = .idle ∧ HostMoves (pending fresh (wr 0x040#32 7#64)) (wr 0x040#32 7#64) { fresh with host := [] } :=
  ⟨rfl, moves_idle fresh _ rfl⟩

/-- A write to CURSOR of an idle block, and to STATUS of a busy one. -/
theorem witness_ReadOnlyRegistersIgnoreWrites :
    HostMoves (pending fresh (wr 0x060#32 9#64)) (wr 0x060#32 9#64) { fresh with host := [] } ∧
    HostMoves (busyHost (loaded 4#64) .outer (wr 0x008#32 9#64)) (wr 0x008#32 9#64)
      { loaded 4#64 with phase := .outer, host := [], sched := [] } :=
  ⟨moves_idle fresh _ rfl, moves_busy (loaded 4#64) .outer _ (by decide)⟩

/-- The first and the last address of each range. -/
theorem witness_UnusedLocationsReadZeroAndIgnoreWrites :
    (∀ a ∈ [0x00000068#32, 0x00000FF8#32, 0x00001000#32, 0x00FFFFF8#32, 0x01800000#32, 0x7FFFFFF8#32, 0x80200000#32,
        0xFFFFFFF8#32], a.toNat % 8 = 0 ∧
      ((0x068 ≤ a.toNat ∧ a.toNat ≤ 0xFF8) ∨ (0x1000 ≤ a.toNat ∧ a.toNat < 0x01000000) ∨
        (0x01800000 ≤ a.toNat ∧ a.toNat < 0x80000000) ∨ 0x80000000 + 8 * 2 ^ fresh.skipLog2Max.val ≤ a.toNat)) ∧
    (∀ op, HostMoves (pending fresh op) op { fresh with host := [] }) :=
  ⟨by simp [fresh, State.resetWith], fun _ => moves_idle fresh _ rfl⟩

/-- The first and the last entry of ST. -/
theorem witness_StepTableWritesAndReads :
    (0 < 2 ^ 20 ∧ (0x01000000#32).toNat = 0x01000000 + 8 * 0) ∧
    (2 ^ 20 - 1 < 2 ^ 20 ∧ (0x017FFFF8#32).toNat = 0x01000000 + 8 * (2 ^ 20 - 1)) ∧
    (∀ op, HostMoves (pending fresh op) op { fresh with host := [] }) :=
  ⟨by decide, by decide, fun _ => moves_idle fresh _ rfl⟩

/-- The first and the last entry of SK for SKIP_LOG2_MAX = 18. -/
theorem witness_SkipTableWritesAndReads :
    (0 < 2 ^ fresh.skipLog2Max.val ∧ (0x80000000#32).toNat = 0x80000000 + 8 * 0) ∧
    (2 ^ 18 - 1 < 2 ^ fresh.skipLog2Max.val ∧ (0x801FFFF8#32).toNat = 0x80000000 + 8 * (2 ^ 18 - 1)) ∧
    (∀ op, HostMoves (pending fresh op) op { fresh with host := [] }) :=
  ⟨by decide, by decide, fun _ => moves_idle fresh _ rfl⟩

/-- A 4-byte access and one at an address that is no multiple of 8; each stops the step. -/
theorem witness_OnlyBadAccessesStopAStep :
    (HostMoves (pending fresh (.access (.read 0x010#32 4))) (.access (.read 0x010#32 4)) { fresh with host := [] } ∧
      (Access.read 0x010#32 4).size ≠ 8) ∧
    ((Access.write 0x014#32 8 9#64).addr.toNat % 8 ≠ 0 ∧
      step (pending fresh (wr 0x014#32 9#64)) = .fault .busError) :=
  ⟨⟨moves_idle fresh _ rfl, by decide⟩, by decide, rfl⟩

/-- A write to CMD of a busy block, and an operation that is no reset and answers a next state. -/
theorem witness_RunningVerifyDropsWrites :
    (busyHost (loaded 4#64) .outer (wr 0x000#32 1#64)).phase ≠ .idle ∧ (0x000#32).toNat % 8 = 0 ∧
    HostMoves (busyHost (loaded 4#64) .outer (wr 0x000#32 1#64)) (wr 0x000#32 1#64)
      { loaded 4#64 with phase := .outer, host := [], sched := [] } ∧
    wr 0x000#32 1#64 ≠ .reset ∧ ∃ t, step (busyHost (loaded 4#64) .outer (wr 0x000#32 1#64)) = .next t :=
  ⟨by decide, by decide, moves_busy (loaded 4#64) .outer _ (by decide), by decide, ⟨_, rfl⟩⟩

/-- Reads of STATUS and of OPND, of a busy and of an idle block. -/
theorem witness_ReadsWhileBusyAndIdle :
    (0x008#32).toNat % 8 = 0 ∧ (0x010#32).toNat % 8 = 0 ∧ (0x010#32) ≠ 0x008#32 ∧
    (∀ a, HostMoves (busyHost (loaded 4#64) .outer (rd a)) (rd a)
      { loaded 4#64 with phase := .outer, host := [], sched := [] }) ∧
    (∀ a, HostMoves (pending fresh (rd a)) (rd a) { fresh with host := [] }) :=
  ⟨by decide, by decide, by decide, fun _ => moves_busy (loaded 4#64) .outer _ (by decide), fun _ => moves_idle fresh _ rfl⟩

/-- A poll of an idle block and of a busy one. -/
theorem witness_PollWaitsForIdle :
    (HostMoves (pending fresh .poll) .poll { fresh with host := [] } ∧
      (statusWord (pending fresh .poll)).toNat % 2 = 0) ∧
    (HostMoves (busyHost (loaded 4#64) .outer .poll) .poll { loaded 4#64 with phase := .outer, host := [], sched := [] } ∧
      (statusWord (busyHost (loaded 4#64) .outer .poll)).toNat % 2 = 1) :=
  ⟨⟨moves_idle fresh _ rfl, by decide⟩, ⟨moves_busy (loaded 4#64) .outer _ (by decide), by decide⟩⟩

/-- A reset during a VERIFY. -/
theorem witness_ResetAbandonsEverything :
    HostMoves (busyHost (loaded 4#64) .inner .reset) .reset
      { loaded 4#64 with phase := .inner, host := [], sched := [] } :=
  moves_busy (loaded 4#64) .inner _ (by decide)

/-- A running VERIFY past END. -/
def past : State := { fresh with stValid := true, skValid := true, phase := .outer, cursor := 7#64, endReg := 5#64 }

theorem past_inv : past.Inv where
  kClamped := by decide
  lClamped := by decide
  tzcntBounded := by decide
  memWf := rfl
  memStored _ h := by cases h
  stepWhole _ _ _ _ := rfl
  running _ := by decide
  innerRange h := by cases h
  skipRange h := by cases h

theorem witness_StepKeepsTheInvariant : past.Inv ∧ ∃ t, step past = .next t := ⟨past_inv, ⟨_, rfl⟩⟩

theorem witness_SequencerTurnIsOneTransition :
    SequencerMoves past past ∧ past.phase ≠ .idle ∧ fresh.phase = .idle :=
  ⟨moves_sequencer past (by decide) rfl, by decide, rfl⟩

/-- CURSOR one above END and equal to END. -/
theorem witness_OuterTransition :
    (SequencerMoves { past with endReg := 6#64 } { past with endReg := 6#64 } ∧ past.phase = .outer ∧
      (6#64).toNat < past.cursor.toNat) ∧
    (SequencerMoves { past with endReg := 7#64 } { past with endReg := 7#64 } ∧ past.cursor.toNat ≤ (7#64).toNat) :=
  ⟨⟨moves_sequencer _ (by decide) rfl, rfl, by decide⟩, ⟨moves_sequencer _ (by decide) rfl, by decide⟩⟩

/-- In INNER at CURSOR 27 with the value `hi`, `lo`. -/
def inner (hi lo : Word) : State :=
  { loaded 4#64 with phase := .inner, cursor := 27#64, endReg := 99#64, accHi := hi, accLo := lo }

/-- The low word one below CURSOR, equal to CURSOR (V-VER-4b: 27 → 31), and a high word with an overflowing product. -/
theorem witness_InnerTransition :
    (∀ hi lo, SequencerMoves (inner hi lo) (inner hi lo) ∧ (inner hi lo).phase = .inner) ∧
    (inner 0#64 26#64).accLo.toNat < (inner 0#64 26#64).cursor.toNat ∧
    ((inner 0#64 27#64).cursor.toNat ≤ (inner 0#64 27#64).accLo.toNat ∧
      fusedStep (inner 0#64 27#64) (inner 0#64 27#64).acc = some (31#128, 0#8)) ∧
    (fusedStep (inner 0xFFFFFFFFFFFFFFFF#64 3#64) (inner 0xFFFFFFFFFFFFFFFF#64 3#64).acc = none ∧
      3 ≤ (inner 0xFFFFFFFFFFFFFFFF#64 3#64).cursor.toNat) :=
  ⟨fun _ _ => ⟨moves_sequencer _ Phase.noConfusion rfl, rfl⟩, by decide, by decide, by decide⟩

/-- In SKIP with the entry `e`. -/
def skipping (e cursor prev : Word) : State := { loaded e with phase := .skip, cursor := cursor, prev := prev }

/-- A wrap, a sum equal to PREV with the residue 5, and one with the residue 0. -/
theorem witness_SkipTransition :
    (∀ e c p, SequencerMoves (skipping e c p) (skipping e c p) ∧ (skipping e c p).phase = .skip) ∧
    (skEntry (skipping 4#64 0xFFFFFFFFFFFFFFFF#64 3#64) ((0xFFFFFFFFFFFFFFFF#64).toNat / 4 % 2 ^ 0)).toNat = 4 ∧
    ((0xFFFFFFFFFFFFFFFF#64).toNat + 4) % 2 ^ 64 < (4#64).toNat ∧
    ((23#64).toNat ≤ ((19#64).toNat + 4) % 2 ^ 64 ∧ ((19#64).toNat + 4) % 2 ^ 64 % 9 = 5) ∧
    ((27#64).toNat ≤ ((23#64).toNat + 4) % 2 ^ 64 ∧ ((23#64).toNat + 4) % 2 ^ 64 % 9 = 0) :=
  ⟨fun _ _ _ => ⟨moves_sequencer _ Phase.noConfusion rfl, rfl⟩, by decide, by decide, by decide, by decide⟩

/-- START = 10, END = 5 (V-VER-5b): the function and the run give (5, COMPLETE). -/
theorem witness_VerifyIsTheFunctionOfItsRule :
    ∃ t, exec .verify { loaded 4#64 with startReg := 10#64, endReg := 5#64 } = .next t ∧
      verifyFunction 1 { loaded 4#64 with startReg := 10#64, endReg := 5#64 } = some (5#64, .complete) ∧
      (seqSteps 1 t).phase = .idle := ⟨_, rfl, by decide, by decide⟩

/-- One read of STATUS before the sequencer's last step. -/
theorem witness_InterleavingDoesNotMatter :
    (∀ op ∈ (busyHost past .outer (rd 0x008#32)).host, op ≠ .reset) ∧
    (∀ m < 1, ∃ u, runSteps m (busyHost past .outer (rd 0x008#32)) = .next u ∧ u.phase ≠ .idle) ∧
    ∃ t, runSteps 1 (busyHost past .outer (rd 0x008#32)) = .next t := by
  refine ⟨by decide, fun m hm => ?_, ⟨_, rfl⟩⟩
  obtain rfl : m = 0 := by omega
  exact ⟨_, rfl, by decide⟩

theorem witness_ResultNeverExceedsEnd : past.Inv ∧ past.phase ≠ .idle ∧ (seqStep past).phase = .idle :=
  ⟨past_inv, by decide, by decide⟩

theorem witness_EndOfARun : past.Inv ∧ past.phase ≠ .idle ∧ ∃ t, t = seqStep past ∧ t.phase = .idle :=
  ⟨past_inv, by decide, ⟨_, rfl, by decide⟩⟩

/-- The rule's example at CURSOR 3 and its fixed point 2^32 - 1 (V-VER-9). -/
theorem witness_FixedPointsRunForEver :
    ((3#64).toNat ≤ { ones with accLo := 0xFFFFFFFF#64 }.acc.toNat ∧
      fusedStep { ones with phase := .inner, cursor := 3#64, accLo := 0xFFFFFFFF#64 }
        { ones with accLo := 0xFFFFFFFF#64 }.acc = some ({ ones with accLo := 0xFFFFFFFF#64 }.acc, 31#8)) ∧
    (ones.k = 1#5 ∧ { ones with accLo := 3#64 }.acc = 3#128 ∧
      ∀ j < 2, stMult ones j = 0xFFFFFFFF#32 ∧ stOff ones j = 0xFFFFFFFF#32) := by decide

/-- V-VER-10. -/
theorem witness_ZeroSkipVerifiesAgain :
    (skipping 0#64 3#64 3#64).phase = .skip ∧ (skipping 0#64 3#64 3#64).prev = (skipping 0#64 3#64 3#64).cursor ∧
    (3#64).toNat ≤ { skipping 0#64 3#64 3#64 with endReg := 10#64 }.endReg.toNat ∧
    skipAmount (skipping 0#64 3#64 3#64) 3#64 = 0#8 ∧ forbiddenResidue 3#64 = false := by decide

/-- The smallest and the largest conforming entry. -/
theorem witness_ConformingSkipsKeepCandidates :
    SkipEntriesConform (skipping 4#64 27#64 27#64) ∧ SkipEntriesConform (skipping 252#64 27#64 27#64) ∧
    (skipping 4#64 27#64 27#64).cursor.toNat % 4 = 3 ∧ (skipping 4#64 27#64 27#64).phase = .skip ∧
    (seqStep (skipping 4#64 27#64 27#64)).phase ≠ .idle := by
  unfold SkipEntriesConform
  decide

/-- K = 1 and K = 0 with their reference tables, and a step of 3 under each (V-STEP-2, V-STEP-1). -/
theorem witness_ReferenceTableIteratesT :
    (RefStepTableLoaded refOne ∧ fusedStep refOne 3#128 = some (5#128, 0#8) ∧ 1 ≤ refOne.k.toNat) ∧
    (RefStepTableLoaded refZero ∧ fusedStep refZero 3#128 = some (5#128, 1#8) ∧ refZero.k.toNat = 0) := by
  unfold RefStepTableLoaded
  decide

theorem witness_ReferenceEntriesFit : 1 ≤ 20 ∧ 2 ^ 20 - 1 < 2 ^ 20 ∧ 20 ≤ Config.kMax := by decide

theorem witness_ResetValues : (true && false) = false ∧ (false && true) = false := by decide

theorem witness_EndedRunStays : fresh.ended = true := by decide

/-- 95_test_vectors.md V-VER-7: the one-entry table 8 is not conforming. At horizon 18 its skip from 23 passes 27. -/
theorem test_eight_not_conforming : ¬ ConformingSkipTable 18 0 (fun _ => 8) := fun h =>
  absurd (h.2 23 27 (by decide) (by decide) (by decide) (by decide)) (by decide)

/-- A full table: horizon 2 and one entry. -/
theorem witness_FirstCandidatesSufficeForFullTables : 2 ≤ 0 + 2 := by decide

/-- The conforming table 4, 4, 4, 8 of horizon 4 in SKIP at 15: 19 is resolved in four fused steps (19 → 29 → 44 → 22 →
11), as every candidate of 3 mod 16 is. -/
def fourSlots : State :=
  { (((loaded 4#64).writeSkip 1 4#64).writeSkip 2 4#64).writeSkip 3 8#64 with
    l := 2#5, phase := .skip, cursor := 15#64, prev := 15#64 }

theorem resolved_three_mod_sixteen (q : Nat) : resolved 4 (16 * q + 3) = true := by
  have h1 : fusedT (16 * q + 3) = 24 * q + 5 := by unfold fusedT; split <;> omega
  have h2 : fusedT (24 * q + 5) = 36 * q + 8 := by unfold fusedT; split <;> omega
  have h3 : fusedT (36 * q + 8) = 18 * q + 4 := by unfold fusedT; split <;> omega
  have h4 : fusedT (18 * q + 4) = 9 * q + 2 := by unfold fusedT; split <;> omega
  have h : 9 * q + 2 < 16 * q + 3 := by omega
  simp [resolved, dropsBelow, h1, h2, h3, h4, h]

theorem fourSlots_loaded : SkipTableLoaded 4 fourSlots := by
  refine ⟨by decide, fun c d hc hd h1 h2 => ?_⟩
  have e : ∀ j < 4, (skEntry fourSlots j).toNat = if j = 3 then 8 else 4 := by decide
  replace h2 : d < c + (skEntry fourSlots (c / 4 % 4)).toNat := h2
  rw [e _ (Nat.mod_lt _ (by decide))] at h2
  have hq : d = 16 * (d / 16) + 3 := by split at h2 <;> omega
  rw [hq]
  exact resolved_three_mod_sixteen _

theorem witness_SkipStepsPassResolvedCandidatesOnly :
    SkipTableLoaded 4 fourSlots ∧ fourSlots.phase = .skip ∧ fourSlots.cursor.toNat % 4 = 3 ∧
    19 % 4 = 3 ∧ fourSlots.cursor.toNat < 19 ∧ 19 < (seqStep fourSlots).cursor.toNat :=
  ⟨fourSlots_loaded, by decide⟩

/-! How a program runs. -/

/-- 30_encoding.md R97: the expansion of `mul`, and a line out of range. -/
theorem test_assemble :
    assemble 18 [.mul 3] = some [wr 0x010#32 3#64, wr 0x000#32 2#64] ∧ assemble 18 [.mul (2 ^ 32)] = none := by decide

/-- The host's question about a table row: the placed word runs as the very next step. -/
theorem test_withFetchWord : ∀ s : State, step (s.withFetchWord 64 0) =
    exec .nop { s with phase := .idle, response := .writeDone } := fun _ => rfl

end Sys2Proof.Tests
end

section
/-! PROOFS of the family 00_scope.md. A sequencer step reads and writes only the block, a host operation other than a reset
leaves a busy block alone; so a run of a VERIFY is a run of the sequencer with the host's steps left out. -/

namespace Sys2Proof.Machine

/-! The host interface as a frame: the fields that `SameBlock` does not mention. -/

/-- `s` with the host interface of `p`: what the two agents share besides the block's own state. -/
def State.withPort (s p : State) : State :=
  { s with draws := p.draws, host := p.host, sched := p.sched, response := p.response }

theorem SameBlock.withPort (s p : State) : SameBlock s (s.withPort p) := by constructor <;> rfl

/-- Two states with the same block differ in the host interface only. -/
theorem SameBlock.eq_withPort {s t : State} (h : SameBlock s t) : t = s.withPort t := by
  obtain ⟨⟩ := s
  obtain ⟨⟩ := t
  obtain ⟨⟩ := h
  simp_all [State.withPort]

/-! No sequencer step reads the host interface (41_sequencer.md R158). -/

theorem fusedStep_withPort (s p : State) (v : Wide) : fusedStep (s.withPort p) v = fusedStep s v := rfl

theorem outerStep_withPort (s p : State) : outerStep (s.withPort p) = (outerStep s).withPort p := by
  rw [outerStep, outerStep, apply_ite (State.withPort · p)]
  rfl

theorem innerStep_withPort (s p : State) : innerStep (s.withPort p) = (innerStep s).withPort p := by
  have hacc : (s.withPort p).acc = s.acc := rfl
  rw [innerStep, innerStep, fusedStep_withPort, hacc, apply_ite (State.withPort · p)]
  cases fusedStep s s.acc <;> rfl

theorem skipStep_withPort (s p : State) : skipStep (s.withPort p) = (skipStep s).withPort p := by
  rw [skipStep, skipStep, apply_ite (State.withPort · p)]
  rfl

theorem seqStep_withPort (s p : State) : seqStep (s.withPort p) = (seqStep s).withPort p := by
  have hphase : (s.withPort p).phase = s.phase := rfl
  rw [seqStep, seqStep, hphase]
  cases s.phase with
  | idle => rfl
  | outer => exact outerStep_withPort s p
  | inner => exact innerStep_withPort s p
  | skip => exact skipStep_withPort s p

/-- The sequencer takes equal blocks to equal blocks. -/
theorem SameBlock.seqStep_congr {s t : State} (h : SameBlock s t) : SameBlock (seqStep s) (seqStep t) := by
  rw [h.eq_withPort, seqStep_withPort]
  exact SameBlock.withPort _ _

theorem SameBlock.seqSteps_congr : ∀ (n : Nat) {s t : State}, SameBlock s t → SameBlock (seqSteps n s) (seqSteps n t)
  | 0, _, _, h => h
  | n + 1, _, _, h => SameBlock.seqSteps_congr n h.seqStep_congr

/-! The steps of a run. -/

/-- A run of `n + 1` steps that reaches a state takes one step and runs on. -/
theorem runSteps_succ_eq_next {n : Nat} {s t : State} (h : runSteps (n + 1) s = .next t) :
    ∃ u, step s = .next u ∧ runSteps n u = .next t := by
  rw [runSteps] at h
  split at h
  · exact ⟨_, ‹_›, h⟩
  · cases h
  · cases h

theorem runSteps_succ_of_step {s u : State} (h : step s = .next u) (n : Nat) :
    runSteps (n + 1) s = runSteps n u := by
  rw [runSteps, h]

/-- While a VERIFY runs, a host operation other than a reset leaves the block alone and adds nothing to what is pending
(20_memory.md R70, R71). -/
theorem hostStep_keeps_busy_block {s t : State} (busy : s.phase ≠ .idle) (noReset : ∀ op ∈ s.host, op ≠ .reset)
    (h : hostStep s = .next t) : SameBlock s t ∧ t.host ⊆ s.host := by
  rcases hostStep_cases s with ⟨_, e⟩ | ⟨_, _, _, _, e⟩ | ⟨addr, rest, pending, _, e⟩ |
    ⟨addr, w, rest, pending, _, e⟩ | ⟨rest, _, e⟩ | ⟨rest, pending, _⟩
  · cases e.symm.trans h
    exact ⟨SameBlock.refl s, List.Subset.refl _⟩
  · cases e.symm.trans h
  · cases e.symm.trans h
    obtain ⟨block, host, _⟩ := performRead_keeps (s.withHost rest) (locate addr)
    refine ⟨(SameBlock.withHost s rest).trans block, ?_⟩
    rw [host, pending]
    exact List.subset_cons_self _ _
  · rcases performWrite_cases (s.withHost rest) (locate addr) w with ⟨_, dropped⟩ | ⟨idle, _⟩ | ⟨idle, _⟩
    · cases (e.trans dropped).symm.trans h
      refine ⟨(SameBlock.withHost s rest).trans (SameBlock.answer _ _), ?_⟩
      rw [pending]
      exact List.subset_cons_self _ _
    · exact absurd idle busy
    · exact absurd idle busy
  · rw [if_pos ((State.busy_eq_true s).mpr busy)] at e
    cases e.symm.trans h
    exact ⟨SameBlock.answer s _, List.Subset.refl _⟩
  · exact absurd rfl (noReset .reset (by simp [pending]))

/-- While a VERIFY runs and no reset is pending, one step of the machine is, for the block, either no step or one step of
the sequencer (00_scope.md R17). -/
theorem step_busy_block {s t : State} (busy : s.phase ≠ .idle) (noReset : ∀ op ∈ s.host, op ≠ .reset)
    (h : step s = .next t) :
    (SameBlock s t ∨ SameBlock (seqStep s) t) ∧ t.host ⊆ s.host := by
  rcases step_cases s with ⟨idle, _⟩ | ⟨_, rest, ⟨_, _, e⟩ | ⟨_, e⟩⟩
  · exact absurd idle busy
  · rw [e] at h
    obtain ⟨block, host⟩ := hostStep_keeps_busy_block (s := s.withSched rest) busy noReset h
    exact ⟨.inl ((SameBlock.withSched s rest).trans block), host⟩
  · rw [e] at h
    cases h
    refine ⟨.inr (SameBlock.withSched s rest).seqStep_congr, ?_⟩
    rw [(seqStep_keeps (s.withSched rest)).host]
    exact List.Subset.refl _

/-- Settles O46, by induction on the number of steps: the first step moves the block not at all or by one step of the
sequencer, and the sequencer's further steps see only the block. -/
theorem interleavingDoesNotMatter : Obligations.InterleavingDoesNotMatter := by
  unfold Obligations.InterleavingDoesNotMatter
  intro s t n
  induction n generalizing s with
  | zero =>
    intro _ _ h
    cases h
    exact ⟨0, Nat.le_refl 0, SameBlock.refl _⟩
  | succ n ih =>
    intro noReset running h
    obtain ⟨_, here, busy⟩ := running 0 n.succ_pos
    cases here
    obtain ⟨u, first, later⟩ := runSteps_succ_eq_next h
    obtain ⟨block, host⟩ := step_busy_block busy noReset first
    have running' : ∀ m < n, ∃ v, runSteps m u = .next v ∧ v.phase ≠ .idle := fun m hm => by
      rw [← runSteps_succ_of_step first]
      exact running (m + 1) (Nat.succ_lt_succ hm)
    obtain ⟨m, hm, reached⟩ := ih u (fun op hop => noReset op (host hop)) running' later
    rcases block with same | moved
    · exact ⟨m, Nat.le_succ_of_le hm, (same.seqSteps_congr m).trans reached⟩
    · exact ⟨m + 1, Nat.succ_le_succ hm, (moved.seqSteps_congr m).trans reached⟩

end Sys2Proof.Machine
end

section
/-! PROOFS of the family 10_state.md: the invariant of Safety.lean. It holds after reset and every step keeps it. -/

namespace Sys2Proof.Machine

/-! ## The invariant

`State.Inv` falls apart by who writes what: the configuration and the tables (the host's writes), the count TZCNT (the
commands and the sequencer) and the ranges of a running VERIFY (the sequencer). -/

/-! The table memory. -/

/-- The clauses of the invariant about the table memory, for the parameter `n`. -/
structure Memory.Sound (n : Fin 29) (m : Memory) : Prop where
  wf : Memory.wf m = true
  stored : ∀ a, (Memory.lookup m a).isSome = true → tableStorage n a = true
  stepWhole : ∀ j < Config.stDepth, ∀ i < 8,
    (Memory.lookup m (stAddr j + i)).isSome = (Memory.lookup m (stAddr j)).isSome

theorem Memory.sound_nil (n : Fin 29) : Memory.Sound n [] where
  wf := rfl
  stored _ h := by cases h
  stepWhole _ _ _ _ := rfl

/-- The addresses listed after bytes are written at rising addresses. -/
theorem Memory.isSome_lookup_store (bs : List Byte) (m : Memory) (x a : Nat) :
    ((Memory.store m x bs).lookup a).isSome = true ↔
      (x ≤ a ∧ a < x + bs.length) ∨ (m.lookup a).isSome = true := by
  rw [Memory.lookup_store]
  split
  · next h =>
    rw [List.getElem?_eq_getElem (show a - x < bs.length by omega)]
    exact iff_of_true rfl (.inl h)
  · next h => rw [or_iff_right h]

/-- The addresses listed after one byte is written. -/
theorem Memory.isSome_lookup_insert (m : Memory) (x : Nat) (b : Byte) (a : Nat) :
    ((Memory.insert m x b).lookup a).isSome = true ↔ a = x ∨ (m.lookup a).isSome = true := by
  rw [Memory.lookup_insert]
  split <;> simp [*]

theorem tableStorage_eq_true (n : Fin 29) (a : Nat) :
    tableStorage n a = true ↔
      (Config.stBase ≤ a ∧ a < Config.stBase + 8 * Config.stDepth) ∨
      (Config.skBase ≤ a ∧ a < Config.skBase + 8 * 2 ^ n.val ∧ (a - Config.skBase) % 8 = 0) := by
  simp [tableStorage]

/-- Writing a whole step-table entry keeps the table memory sound (20_memory.md R69). -/
theorem Memory.Sound.store_step {n : Fin 29} {m : Memory} (h : Memory.Sound n m) {j : Nat} (hj : j < Config.stDepth)
    (w : Word) : Memory.Sound n (Memory.store m (stAddr j) (wordBytes w)) where
  wf := Memory.store_wf _ _ h.wf
  stored a ha := by
    rw [Memory.isSome_lookup_store, wordBytes_length] at ha
    rcases ha with inside | old
    · rw [tableStorage_eq_true]
      simp only [stAddr] at inside
      omega
    · exact h.stored a old
  stepWhole i hi b hb := by
    have old := h.stepWhole i hi b hb
    rw [Bool.eq_iff_iff] at old ⊢
    rw [Memory.isSome_lookup_store, Memory.isSome_lookup_store, wordBytes_length, old]
    simp only [stAddr]
    refine or_congr_left ?_
    omega

/-- Writing an implemented skip-table entry keeps the table memory sound (20_memory.md R63). -/
theorem Memory.Sound.insert_skip {n : Fin 29} {m : Memory} (h : Memory.Sound n m) {j : Nat} (hj : j < 2 ^ n.val)
    (b : Byte) : Memory.Sound n (Memory.insert m (skAddr j) b) where
  wf := Memory.insert_wf _ _ h.wf
  stored a ha := by
    rw [Memory.isSome_lookup_insert] at ha
    rcases ha with rfl | old
    · rw [tableStorage_eq_true]
      simp only [skAddr]
      omega
    · exact h.stored a old
  stepWhole i hi c hc := by
    have below : stAddr i + 8 ≤ skAddr j := by
      simp only [stAddr, skAddr, Config.stBase, Config.skBase, Config.stDepth] at hi ⊢
      omega
    rw [Memory.lookup_insert, Memory.lookup_insert, if_neg (by omega), if_neg (by omega)]
    exact h.stepWhole i hi c hc

/-! The parts of the invariant. -/

/-- The part of the invariant that only the host's writes can touch: the clamps and the tables. -/
structure State.ConfigInv (s : State) : Prop where
  kClamped : s.k.toNat ≤ Config.kMax
  lClamped : s.l.toNat ≤ s.skipLog2Max.val
  tables : Memory.Sound s.skipLog2Max s.mem

/-- The part of the invariant about a running VERIFY. -/
structure State.RunInv (s : State) : Prop where
  running : s.phase ≠ .idle → s.stValid = true ∧ s.skValid = true ∧ s.ovf = false ∧ s.err = .none ∧
    s.rkind = .none ∧ 3 ≤ s.cursor.toNat
  innerRange : s.phase = .inner → s.cursor.toNat ≤ s.endReg.toNat
  skipRange : s.phase = .skip → 3 ≤ s.prev.toNat ∧ s.prev.toNat ≤ s.endReg.toNat ∧ s.prev.toNat ≤ s.cursor.toNat

theorem State.inv_iff (s : State) : s.Inv ↔ s.ConfigInv ∧ s.tzcnt.toNat ≤ 128 ∧ s.RunInv := by
  constructor
  · rintro ⟨k, l, tz, wf, stored, whole, running, inner, skip⟩
    exact ⟨⟨k, l, wf, stored, whole⟩, tz, running, inner, skip⟩
  · rintro ⟨⟨k, l, wf, stored, whole⟩, tz, running, inner, skip⟩
    exact ⟨k, l, tz, wf, stored, whole, running, inner, skip⟩

/-- An idle block satisfies every clause about a running VERIFY. -/
theorem State.RunInv.of_idle {s : State} (idle : s.phase = .idle) : s.RunInv where
  running h := absurd idle h
  innerRange h := by simp [idle] at h
  skipRange h := by simp [idle] at h

theorem State.ConfigInv.congr {s t : State} (h : s.ConfigInv) (k : t.k = s.k) (l : t.l = s.l) (mem : t.mem = s.mem)
    (skipLog2Max : t.skipLog2Max = s.skipLog2Max) : t.ConfigInv where
  kClamped := k ▸ h.kClamped
  lClamped := by rw [l, skipLog2Max]; exact h.lClamped
  tables := by rw [mem, skipLog2Max]; exact h.tables

/-- The invariant speaks of the block only. -/
theorem State.Inv.of_sameBlock {s t : State} (h : s.Inv) (same : SameBlock s t) : t.Inv := by
  obtain ⟨config, tz, running, inner, skip⟩ := s.inv_iff.mp h
  rw [same.eq_withPort, State.inv_iff]
  exact ⟨config.congr rfl rfl rfl rfl, tz, running, inner, skip⟩

theorem resetWith_configInv (n : Fin 29) : (State.resetWith n).ConfigInv where
  kClamped := Nat.zero_le _
  lClamped := Nat.zero_le _
  tables := Memory.sound_nil n

/-- The base case of the invariant (10_state.md R43). -/
theorem resetWith_inv (n : Fin 29) : (State.resetWith n).Inv :=
  (State.inv_iff _).mpr ⟨resetWith_configInv n, Nat.zero_le _, .of_idle rfl⟩

/-- Settles O39. -/
theorem resetIsSound : Obligations.ResetIsSound := ⟨resetWith_inv Config.skipLog2Max, resetWith_inv⟩

/-- A reset establishes the invariant, whatever held before (70_reset_and_hazards.md R250). -/
theorem applyReset_inv (s : State) : (applyReset s).Inv :=
  (State.inv_iff _).mpr
    ⟨(resetWith_configInv s.skipLog2Max).congr rfl rfl rfl rfl, Nat.zero_le _, .of_idle rfl⟩

/-! The commands. -/

/-- TZCNT gets at most 128 (10_state.md R29). -/
theorem rtz_count_le (v : Wide) : (rtz v).2.toNat ≤ 128 := by
  rw [rtz_count]
  exact ctz128_le v

/-- The states a CMD write to an idle block can end in (60_exceptions.md R221, R222, 41_sequencer.md R156, R157). -/
inductive CommandEnd (s : State) : State → Prop
  /-- An error is signalled. -/
  | error (c : ErrCode) : CommandEnd s (signalErr s c)
  /-- Nothing but OVF and ERR is written: NOP, or an overflow. -/
  | flags (o : Bool) : CommandEnd s (commandDone s o)
  /-- ADD or MUL wrote ACC. -/
  | acc (v : Wide) : CommandEnd s (commandDone (s.setAcc v) false)
  /-- RTZ or STEP wrote ACC and TZCNT. -/
  | rtz (v : Wide) : CommandEnd s (commandDone (s.setRtz (rtz v)) false)
  /-- VERIFY found a table absent. -/
  | empty : CommandEnd s (emptyVerify (commandDone s false))
  /-- VERIFY started. -/
  | started (st : s.stValid = true) (sk : s.skValid = true) : CommandEnd s (startVerify (commandDone s false))

theorem exec_commandEnd (i : Instr) {s t : State} (h : exec i s = .next t) : CommandEnd s t := by
  cases i with
  | nop => cases h; exact .flags false
  | add =>
    change execAdd s = .next t at h
    rcases execAdd_cases s with ⟨r, _, e⟩ | ⟨_, e⟩ <;> cases e.symm.trans h
    · exact .acc r
    · exact .flags true
  | mul =>
    change execMul s = .next t at h
    rcases execMul_cases s with ⟨_, e⟩ | ⟨_, ⟨r, _, e⟩ | ⟨_, e⟩⟩ <;> cases e.symm.trans h
    · exact .error .operand
    · exact .acc r
    · exact .flags true
  | rtz => cases h; exact .rtz s.acc
  | step =>
    change execStep s = .next t at h
    rcases execStep_cases s with ⟨_, e⟩ | ⟨_, ⟨q, _, e⟩ | ⟨_, e⟩⟩ <;> cases e.symm.trans h
    · exact .error .noTable
    · exact .rtz q
    · exact .flags true
  | verify =>
    change execVerify s = .next t at h
    rcases execVerify_cases s with ⟨st, sk, e⟩ | ⟨_, e⟩ <;> cases e.symm.trans h
    · exact .started st sk
    · exact .empty

theorem issueCommand_commandEnd {s t : State} {w : Word} (h : issueCommand s w = .next t) : CommandEnd s t := by
  rcases issueCommand_cases s w with ⟨i, _, e⟩ | ⟨_, _, e⟩ <;> rw [e] at h
  · exact exec_commandEnd i h
  · cases h
    exact .error .illegal

/-- A VERIFY starts at a candidate of at least 3 (41_sequencer.md R157). -/
theorem three_le_firstCandidate (start : Word) : 3 ≤ (firstCandidate start).toNat := by
  rw [firstCandidate, BitVec.toNat_or]
  exact Nat.right_le_or

theorem startVerify_runInv {s : State} (st : s.stValid = true) (sk : s.skValid = true) :
    (startVerify (commandDone s false)).RunInv where
  running _ := ⟨st, sk, rfl, rfl, rfl, three_le_firstCandidate s.startReg⟩
  innerRange h := by cases h
  skipRange h := by cases h

/-- Whatever a command ends in satisfies the invariant: no command writes the configuration or a table, and a VERIFY
starts only with both tables present. -/
theorem CommandEnd.inv {s t : State} (h : CommandEnd s t) (inv : s.Inv) (idle : s.phase = .idle) : t.Inv := by
  obtain ⟨config, tz, _⟩ := s.inv_iff.mp inv
  rw [State.inv_iff]
  cases h with
  | error c => exact ⟨config.congr rfl rfl rfl rfl, tz, .of_idle idle⟩
  | flags o => exact ⟨config.congr rfl rfl rfl rfl, tz, .of_idle idle⟩
  | acc v => exact ⟨config.congr rfl rfl rfl rfl, tz, .of_idle idle⟩
  | rtz v => exact ⟨config.congr rfl rfl rfl rfl, rtz_count_le v, .of_idle idle⟩
  | empty => exact ⟨config.congr rfl rfl rfl rfl, tz, .of_idle idle⟩
  | started st sk => exact ⟨config.congr rfl rfl rfl rfl, tz, startVerify_runInv st sk⟩

/-! The host's writes. -/

/-- KCFG stores min(w, 20) (10_state.md R30). -/
theorem writeRegister_kcfg_toNat (s : State) (w : Word) :
    (writeRegister s .kcfg w).k.toNat = min w.toNat Config.kMax := by
  simp only [writeRegister, BitVec.toNat_ofNat, Config.kMax]
  omega

/-- SKCFG stores min(w, SKIP_LOG2_MAX) (10_state.md R31). -/
theorem writeRegister_skcfg_toNat (s : State) (w : Word) :
    (writeRegister s .skcfg w).l.toNat = min w.toNat s.skipLog2Max.val := by
  have := s.skipLog2Max.isLt
  simp only [writeRegister, BitVec.toNat_ofNat]
  omega

theorem writeRegister_phase (s : State) (r : Reg) (w : Word) : (writeRegister s r w).phase = s.phase := by
  cases r <;> rfl

theorem writeRegister_tzcnt (s : State) (r : Reg) (w : Word) : (writeRegister s r w).tzcnt = s.tzcnt := by
  cases r <;> rfl

/-- The two configuration registers clamp; no other register write reaches the configuration or a table. -/
theorem writeRegister_configInv {s : State} (h : s.ConfigInv) (r : Reg) (w : Word) :
    (writeRegister s r w).ConfigInv := by
  cases r with
  | kcfg => exact ⟨writeRegister_kcfg_toNat s w ▸ Nat.min_le_right _ _, h.lClamped, h.tables⟩
  | skcfg => exact ⟨h.kClamped, writeRegister_skcfg_toNat s w ▸ Nat.min_le_right _ _, h.tables⟩
  | _ => exact h.congr rfl rfl rfl rfl

theorem skipImplemented_eq_true (s : State) (j : Nat) : skipImplemented s j = true ↔ j < 2 ^ s.skipLog2Max.val := by
  simp [skipImplemented]

/-- The step-table window holds as many entries as ST (20_memory.md R62). -/
theorem lt_stDepth_of_locate {a : Addr} {j : Nat} (h : locate a = .stepEntry j) : j < Config.stDepth := by
  unfold locate at h
  split at h
  · split at h <;> cases h
  · split at h
    · cases h
      omega
    · split at h <;> cases h

/-- A write to a location of an idle block keeps the invariant. -/
theorem writeLocation_inv {s : State} (h : s.Inv) (idle : s.phase = .idle) (a : Addr) (w : Word) :
    (writeLocation s (locate a) w).Inv := by
  obtain ⟨config, tz, _⟩ := s.inv_iff.mp h
  cases loc : locate a with
  | register r =>
    refine (State.inv_iff _).mpr ⟨writeRegister_configInv config r w, ?_, .of_idle ?_⟩
    · exact (writeRegister_tzcnt s r w).symm ▸ tz
    · exact (writeRegister_phase s r w).trans idle
  | stepEntry j =>
    have tables := config.tables.store_step (lt_stDepth_of_locate loc) w
    exact (State.inv_iff _).mpr ⟨⟨config.kClamped, config.lClamped, tables⟩, tz, .of_idle idle⟩
  | skipWord j =>
    rw [writeLocation]
    split
    · next implemented =>
      have tables := config.tables.insert_skip ((skipImplemented_eq_true s j).mp implemented) (w.extractLsb' 0 8)
      exact (State.inv_iff _).mpr ⟨⟨config.kClamped, config.lClamped, tables⟩, tz, .of_idle idle⟩
    · exact h
  | reserved => exact h
  | unmapped => exact h

theorem performWrite_inv {s t : State} (h : s.Inv) (a : Addr) {w : Word} (e : performWrite s (locate a) w = .next t) :
    t.Inv := by
  have answered : (s.answer .writeDone).Inv := h.of_sameBlock (SameBlock.answer s _)
  rcases performWrite_cases s (locate a) w with ⟨_, dropped⟩ | ⟨idle, _, command⟩ | ⟨idle, _, written⟩
  · cases dropped.symm.trans e
    exact answered
  · exact (issueCommand_commandEnd (command.symm.trans e)).inv answered idle
  · cases written.symm.trans e
    exact writeLocation_inv answered idle a w

/-! The agents. -/

theorem hostStep_inv {s t : State} (h : s.Inv) (e : hostStep s = .next t) : t.Inv := by
  rcases hostStep_cases s with ⟨_, f⟩ | ⟨_, _, _, _, f⟩ | ⟨addr, rest, _, _, f⟩ | ⟨addr, w, rest, _, _, f⟩ |
    ⟨rest, _, f⟩ | ⟨rest, _, f⟩
  · cases f.symm.trans e
    exact h
  · cases f.symm.trans e
  · cases f.symm.trans e
    exact h.of_sameBlock ((SameBlock.withHost s rest).trans (performRead_keeps _ (locate addr)).1)
  · exact performWrite_inv (h.of_sameBlock (SameBlock.withHost s rest)) addr (f.symm.trans e)
  · cases f.symm.trans e
    split
    · exact h.of_sameBlock (SameBlock.answer s _)
    · exact h.of_sameBlock ((SameBlock.withHost s rest).trans (SameBlock.answer _ _))
  · cases f.symm.trans e
    exact applyReset_inv _

/-- A sequencer step writes to TZCNT at most the count of a fused step. -/
theorem seqStep_tzcnt_cases (s : State) :
    (seqStep s).tzcnt = s.tzcnt ∨ ∃ v, (seqStep s).tzcnt = (rtz v).2 := by
  unfold seqStep
  split
  · exact .inl rfl
  · rcases outerStep_cases s with ⟨_, e⟩ | ⟨_, e⟩ <;> (rw [e]; exact .inl rfl)
  · rcases innerStep_cases s with ⟨_, e⟩ | ⟨_, ⟨q, _, _, e⟩ | ⟨_, _, e⟩⟩ <;> rw [e]
    · exact .inl rfl
    · exact .inr ⟨q, rfl⟩
    · exact .inl rfl
  · rcases skipStep_cases s with ⟨_, e⟩ | ⟨_, e⟩ <;> (rw [e]; exact .inl rfl)

theorem outerStep_runInv {s : State} (h : s.RunInv) (outer : s.phase = .outer) : (outerStep s).RunInv := by
  rcases outerStep_cases s with ⟨_, e⟩ | ⟨inRange, e⟩ <;> rw [e]
  · exact .of_idle rfl
  · exact ⟨fun _ => h.running (by simp [outer]), fun _ => inRange, fun skip => by cases skip⟩

/-- The exit of the trajectory takes the candidate, which lies in the range, into PREV. -/
theorem innerStep_runInv {s : State} (h : s.RunInv) (inner : s.phase = .inner) : (innerStep s).RunInv := by
  obtain ⟨st, sk, ovf, err, rkind, low⟩ := h.running (by simp [inner])
  have inRange := h.innerRange inner
  rcases innerStep_cases s with ⟨_, e⟩ | ⟨_, ⟨q, _, _, e⟩ | ⟨_, _, e⟩⟩ <;> rw [e]
  · exact ⟨fun _ => ⟨st, sk, ovf, err, rkind, low⟩, fun inner => (by cases inner),
      fun _ => ⟨low, inRange, Nat.le_refl _⟩⟩
  · exact ⟨fun _ => ⟨st, sk, ovf, err, rkind, low⟩, fun _ => inRange, h.skipRange⟩
  · exact .of_idle rfl

/-- A skip that does not wrap stays at or above PREV, hence at least 3. -/
theorem skipStep_runInv {s : State} (h : s.RunInv) (skip : s.phase = .skip) : (skipStep s).RunInv := by
  obtain ⟨st, sk, ovf, err, rkind, _⟩ := h.running (by simp [skip])
  obtain ⟨low, inRange, _⟩ := h.skipRange skip
  rcases skipStep_cases s with ⟨_, e⟩ | ⟨above, e⟩ <;> rw [e]
  · exact .of_idle rfl
  · refine ⟨fun _ => ⟨st, sk, ovf, err, rkind, low.trans above⟩, fun inner => ?_, fun _ => ⟨low, inRange, above⟩⟩
    rcases advanceCursor_phase_cases s (skipTarget s s.cursor) with ⟨_, p⟩ | ⟨_, p⟩ <;> cases p.symm.trans inner

theorem seqStep_runInv {s : State} (h : s.RunInv) : (seqStep s).RunInv := by
  unfold seqStep
  split
  · exact h
  · exact outerStep_runInv h ‹_›
  · exact innerStep_runInv h ‹_›
  · exact skipStep_runInv h ‹_›

theorem seqStep_inv {s : State} (h : s.Inv) : (seqStep s).Inv := by
  obtain ⟨config, tz, run⟩ := s.inv_iff.mp h
  have keeps := seqStep_keeps s
  refine (State.inv_iff _).mpr
    ⟨config.congr keeps.k keeps.l keeps.mem keeps.skipLog2Max, ?_, seqStep_runInv run⟩
  rcases seqStep_tzcnt_cases s with e | ⟨v, e⟩ <;> rw [e]
  · exact tz
  · exact rtz_count_le v

/-- Settles O40: whichever agent moves, its step keeps the invariant. -/
theorem stepKeepsTheInvariant : Obligations.StepKeepsTheInvariant := by
  unfold Obligations.StepKeepsTheInvariant
  intro s t h e
  have scheduled : ∀ rest, (s.withSched rest).Inv := fun rest => h.of_sameBlock (SameBlock.withSched s rest)
  rcases step_cases s with ⟨_, host⟩ | ⟨_, rest, ⟨_, _, host⟩ | ⟨_, sequencer⟩⟩
  · exact hostStep_inv (scheduled _) (host.symm.trans e)
  · exact hostStep_inv (scheduled rest) (host.symm.trans e)
  · cases sequencer.symm.trans e
    exact seqStep_inv (scheduled rest)

end Sys2Proof.Machine
end

section
/-! PROOFS of the family 10_state.md, continued: the register window. One rule per bus operation of an idle block, then
the registers one by one. -/

namespace Sys2Proof.Machine

/-! ## The host's turn

What one access of the host does, whatever the phase and the interleaving that gave it the turn. -/

/-- Taking the operation and the turn touches neither the block nor the count of free reads. -/
theorem HostMoves.sameBlock {s s' : State} {op : HostOp} (h : HostMoves s op s') : SameBlock s s' := by
  obtain ⟨_, _, ⟨_, rfl⟩ | ⟨_, _, _, rfl⟩⟩ := h <;> constructor <;> rfl

/-- In an idle block the turn is the host's (00_scope.md R17). -/
theorem HostMoves.of_idle {s : State} {op : HostOp} {rest : List HostOp} (idle : s.phase = .idle)
    (pending : s.host = op :: rest) : HostMoves s op (s.withHost rest) := ⟨rest, pending, .inl ⟨idle, rfl⟩⟩

/-- On the host's turn a step is a step of the host agent on a state whose next operation is `op`. -/
theorem HostMoves.step_eq_hostStep {s s' : State} {op : HostOp} (h : HostMoves s op s') :
    ∃ u rest, u.host = op :: rest ∧ u.withHost rest = s' ∧ step s = hostStep u := by
  obtain ⟨rest, pending, ⟨idle, rfl⟩ | ⟨busy, left, sched, rfl⟩⟩ := h
  · rcases step_cases s with ⟨_, e⟩ | ⟨busy, _⟩
    · exact ⟨_, rest, pending, rfl, e⟩
    · exact absurd idle busy
  · rcases step_cases s with ⟨idle, _⟩ | ⟨_, left', ⟨_, sched', e⟩ | ⟨others, _⟩⟩
    · exact absurd idle busy
    · obtain ⟨_, same⟩ := List.cons.inj (sched.symm.trans sched')
      exact ⟨s.withSched left', rest, pending, same ▸ rfl, e⟩
    · simp [pending, sched] at others

theorem HostMoves.step_access {s s' : State} {a : Access} (h : HostMoves s (.access a) s') :
    step s = performAccess s' a := by
  obtain ⟨u, rest, pending, rfl, e⟩ := h.step_eq_hostStep
  rw [e]
  simp only [hostStep, pending]

theorem HostMoves.step_read {s s' : State} {a : Addr} (h : HostMoves s (.access (.read a 8)) s')
    (aligned : a.toNat % 8 = 0) : step s = .next (performRead s' (locate a)) := by
  rw [h.step_access, performAccess, if_pos ((admitted_eq_true (.read a 8)).mpr ⟨rfl, aligned⟩)]

theorem HostMoves.step_write {s s' : State} {a : Addr} {w : Word} (h : HostMoves s (.access (.write a 8 w)) s')
    (aligned : a.toNat % 8 = 0) : step s = performWrite s' (locate a) w := by
  rw [h.step_access, performAccess, if_pos ((admitted_eq_true (.write a 8 w)).mpr ⟨rfl, aligned⟩)]

/-- A read of an idle block answers the location's value (20_memory.md R64 to R66). -/
theorem HostMoves.step_read_idle {s s' : State} {a : Addr} (h : HostMoves s (.access (.read a 8)) s')
    (idle : s.phase = .idle) (aligned : a.toNat % 8 = 0) :
    step s = .next (s'.answer (.readData (readLocation s' (locate a)))) := by
  rw [h.step_read aligned]
  rcases performRead_cases s' (locate a) with ⟨busy, _⟩ | ⟨_, e⟩
  · exact absurd (h.sameBlock.phase.trans idle) busy
  · rw [e]

/-- A write to an idle block at a location other than CMD changes that location (20_memory.md R64 to R66). -/
theorem HostMoves.step_write_idle {s s' : State} {a : Addr} {w : Word}
    (h : HostMoves s (.access (.write a 8 w)) s') (idle : s.phase = .idle) (aligned : a.toNat % 8 = 0)
    (notCmd : locate a ≠ .register .cmd) :
    step s = .next (writeLocation (s'.answer .writeDone) (locate a) w) := by
  rw [h.step_write aligned]
  rcases performWrite_cases s' (locate a) w with ⟨busy, _⟩ | ⟨_, cmd, _⟩ | ⟨_, _, e⟩
  · exact absurd (h.sameBlock.phase.trans idle) busy
  · exact absurd cmd notCmd
  · exact e

/-- A write that the location ignores changes nothing in any phase: a busy block drops it (20_memory.md R70). -/
theorem HostMoves.step_write_ignored {s s' : State} {a : Addr} {w : Word}
    (h : HostMoves s (.access (.write a 8 w)) s') (aligned : a.toNat % 8 = 0) (notCmd : locate a ≠ .register .cmd)
    (ignored : writeLocation (s'.answer .writeDone) (locate a) w = s'.answer .writeDone) :
    step s = .next (s'.answer .writeDone) := by
  rw [h.step_write aligned]
  rcases performWrite_cases s' (locate a) w with ⟨_, e⟩ | ⟨_, cmd, _⟩ | ⟨_, _, e⟩
  · exact e
  · exact absurd cmd notCmd
  · rw [e, ignored]

/-! ## The address map -/

theorem Reg.addr_aligned (r : Reg) : r.addr.toNat % 8 = 0 := by cases r <;> rfl

/-- Every register lies at its offset (10_state.md R22). -/
theorem locate_addr (r : Reg) : locate r.addr = .register r := by cases r <;> rfl

theorem Reg.ofWord_eq_none {n : Nat} (h : 13 ≤ n) : Reg.ofWord n = none := by
  obtain ⟨k, rfl⟩ := Nat.exists_eq_add_of_le' h
  rfl

/-- The register window from 0x068 on is reserved (10_state.md R36). -/
theorem locate_eq_reserved {a : Addr} (low : 0x068 ≤ a.toNat) (high : a.toNat < Config.regWindow) :
    locate a = .reserved := by
  have noRegister : Reg.ofWord (a.toNat / 8) = none := Reg.ofWord_eq_none (by omega)
  rw [locate, if_pos high, noRegister]

/-- Between the windows nothing is mapped (20_memory.md R60, R66). -/
theorem locate_eq_unmapped {a : Addr}
    (h : (0x1000 ≤ a.toNat ∧ a.toNat < 0x01000000) ∨ (0x01800000 ≤ a.toNat ∧ a.toNat < 0x80000000)) :
    locate a = .unmapped := by
  rw [locate, if_neg, if_neg, if_neg] <;>
    (simp only [Config.skBase, Config.regWindow, Config.stBase, Config.stDepth]; omega)

/-- From `skBase` on lies the skip-table window (20_memory.md R63). -/
theorem locate_eq_skipWord {a : Addr} (h : Config.skBase ≤ a.toNat) :
    locate a = .skipWord ((a.toNat - Config.skBase) / 8) := by
  rw [locate, if_neg, if_neg, if_pos h] <;>
    (simp only [Config.skBase, Config.regWindow, Config.stBase, Config.stDepth] at h ⊢; omega)

/-- A location that holds nothing when SKIP_LOG2_MAX is the parameter of `s`. -/
inductive Location.Unused (s : State) : Location → Prop
  | reserved : Location.Unused s .reserved
  | unmapped : Location.Unused s .unmapped
  | skipWord {j : Nat} (h : 2 ^ s.skipLog2Max.val ≤ j) : Location.Unused s (.skipWord j)

theorem skipImplemented_eq_false {s : State} {j : Nat} (h : 2 ^ s.skipLog2Max.val ≤ j) :
    skipImplemented s j = false := by
  simpa [skipImplemented] using h

theorem Location.Unused.ne_cmd {s : State} {loc : Location} (h : loc.Unused s) : loc ≠ .register .cmd := by
  cases h <;> simp

theorem Location.Unused.read {s : State} {loc : Location} (h : loc.Unused s) : readLocation s loc = 0#64 := by
  cases h with
  | reserved => rfl
  | unmapped => rfl
  | skipWord h => simp only [readLocation, skipImplemented_eq_false h, Bool.false_eq_true, if_false]

theorem Location.Unused.write {s : State} {loc : Location} (h : loc.Unused s) (w : Word) :
    writeLocation s loc w = s := by
  cases h with
  | reserved => rfl
  | unmapped => rfl
  | skipWord h => simp only [writeLocation, skipImplemented_eq_false h, Bool.false_eq_true, if_false]

/-- The addresses of 10_state.md R36 and 20_memory.md R63, R66 are unused. -/
theorem locate_unused {s : State} {a : Addr}
    (h : (0x068 ≤ a.toNat ∧ a.toNat < Config.regWindow) ∨ (0x1000 ≤ a.toNat ∧ a.toNat < 0x01000000) ∨
      (0x01800000 ≤ a.toNat ∧ a.toNat < 0x80000000) ∨ Config.skBase + 8 * 2 ^ s.skipLog2Max.val ≤ a.toNat) :
    (locate a).Unused s := by
  rcases h with ⟨low, high⟩ | between | between | above
  · exact locate_eq_reserved low high ▸ .reserved
  · exact locate_eq_unmapped (.inl between) ▸ .unmapped
  · exact locate_eq_unmapped (.inr between) ▸ .unmapped
  · rw [locate_eq_skipWord (by omega)]
    exact .skipWord (by omega)

/-- Settles O30: the ranges are exactly unused locations, and CMD has no storage. -/
theorem unusedLocationsReadZeroAndIgnoreWrites : Obligations.UnusedLocationsReadZeroAndIgnoreWrites := by
  unfold Obligations.UnusedLocationsReadZeroAndIgnoreWrites
  intro s s' idle
  refine ⟨fun a aligned range => ?_, fun h => h.step_read_idle idle rfl⟩
  have unused : ∀ u : State, u.skipLog2Max = s.skipLog2Max → (locate a).Unused u := fun u parameter =>
    locate_unused (by rw [parameter]; simp only [Config.regWindow, Config.skBase]; omega)
  refine ⟨fun h => ?_, fun w h => ?_⟩
  · rw [h.step_read_idle idle aligned, (unused s' h.sameBlock.skipLog2Max).read]
    rfl
  · have here := unused (s'.answer .writeDone) h.sameBlock.skipLog2Max
    exact h.step_write_ignored aligned here.ne_cmd (here.write w)

/-! ## The registers -/

theorem HostMoves.step_write_register {s s' : State} {r : Reg} {w : Word}
    (h : HostMoves s (.access (.write r.addr 8 w)) s') (idle : s.phase = .idle) (notCmd : r ≠ .cmd) :
    step s = .next (writeRegister (s'.answer .writeDone) r w) := by
  rw [h.step_write_idle idle r.addr_aligned (by simpa [locate_addr] using notCmd), locate_addr, writeLocation]

theorem HostMoves.step_read_register {s s' : State} {r : Reg} (h : HostMoves s (.access (.read r.addr 8)) s')
    (idle : s.phase = .idle) : step s = .next (s'.answer (.readData (readRegister s' r))) := by
  rw [h.step_read_idle idle r.addr_aligned, locate_addr, readLocation]

/-- What a register reads is of the block. -/
theorem SameBlock.readRegister {s t : State} (h : SameBlock s t) (r : Reg) : readRegister t r = readRegister s r := by
  rw [h.eq_withPort]
  cases r <;> rfl

/-- Settles O23. -/
theorem plainRegisterWrites : Obligations.PlainRegisterWrites := by
  unfold Obligations.PlainRegisterWrites
  intro s s' w idle
  exact
    ⟨fun h => h.step_write_register (r := .opnd) idle (by decide),
     fun h => h.step_write_register (r := .accLo) idle (by decide),
     fun h => h.step_write_register (r := .accHi) idle (by decide),
     fun h => h.step_write_register (r := .start) idle (by decide),
     fun h => h.step_write_register (r := .endReg) idle (by decide)⟩

/-- The registers that hold the whole word the host writes (10_state.md R27, R28, R33). -/
inductive Reg.Plain : Reg → Prop
  | opnd : Reg.Plain .opnd
  | accLo : Reg.Plain .accLo
  | accHi : Reg.Plain .accHi
  | start : Reg.Plain .start
  | endReg : Reg.Plain .endReg

theorem Reg.Plain.ne_cmd {r : Reg} (h : r.Plain) : r ≠ .cmd := by cases h <;> decide

theorem Reg.Plain.readRegister_writeRegister {r : Reg} (h : r.Plain) (s : State) (w : Word) :
    readRegister (writeRegister s r w) r = w := by
  cases h <;> rfl

theorem writeRegister_host (s : State) (r : Reg) (w : Word) : (writeRegister s r w).host = s.host := by
  cases r <;> rfl

/-- A write to a plain register, then a read of it. -/
theorem Reg.Plain.reads_back {r : Reg} (plain : r.Plain) {s : State} {w : Word} {rest : List HostOp}
    (idle : s.phase = .idle) (pending : s.host = .access (.write r.addr 8 w) :: .access (.read r.addr 8) :: rest) :
    ∃ t u, step s = .next t ∧ step t = .next u ∧ u.response = .readData w ∧ u.host = rest ∧ SameBlock t u := by
  have write := (HostMoves.of_idle idle pending).step_write_register idle plain.ne_cmd
  set u := (s.withHost (.access (.read r.addr 8) :: rest)).answer .writeDone
  have idle' : (writeRegister u r w).phase = .idle := (writeRegister_phase u r w).trans idle
  have turn := HostMoves.of_idle idle' (writeRegister_host u r w)
  have read := turn.step_read_register idle'
  rw [turn.sameBlock.readRegister, plain.readRegister_writeRegister] at read
  exact ⟨_, _, write, read, rfl, rfl, turn.sameBlock.trans (SameBlock.answer _ _)⟩

/-- Settles O24. -/
theorem plainRegistersReadBack : Obligations.PlainRegistersReadBack := by
  unfold Obligations.PlainRegistersReadBack
  intro s a w rest idle which pending
  rcases which with rfl | rfl | rfl | rfl | rfl
  · exact Reg.Plain.opnd.reads_back idle pending
  · exact Reg.Plain.accLo.reads_back idle pending
  · exact Reg.Plain.accHi.reads_back idle pending
  · exact Reg.Plain.start.reads_back idle pending
  · exact Reg.Plain.endReg.reads_back idle pending

/-! Zero extension keeps the number of a narrow field (10_state.md R29 to R31). -/

theorem readRegister_tzcnt_toNat (s : State) : (readRegister s .tzcnt).toNat = s.tzcnt.toNat :=
  BitVec.toNat_setWidth_of_le (by decide)

theorem readRegister_kcfg_toNat (s : State) : (readRegister s .kcfg).toNat = s.k.toNat :=
  BitVec.toNat_setWidth_of_le (by decide)

theorem readRegister_skcfg_toNat (s : State) : (readRegister s .skcfg).toNat = s.l.toNat :=
  BitVec.toNat_setWidth_of_le (by decide)

/-- A read of a register whose value is the number `n`. -/
theorem HostMoves.step_read_value {s s' : State} {r : Reg} {n : Nat} (h : HostMoves s (.access (.read r.addr 8)) s')
    (idle : s.phase = .idle) (value : (readRegister s r).toNat = n) :
    ∃ w : Word, step s = .next { s' with response := .readData w } ∧ w.toNat = n :=
  ⟨readRegister s r, h.sameBlock.readRegister r ▸ h.step_read_register idle, value⟩

/-- Settles O25, register by register. -/
theorem registersReadTheirFields : Obligations.RegistersReadTheirFields := by
  unfold Obligations.RegistersReadTheirFields
  intro s s' a n idle h which
  rcases which with ⟨rfl, rfl⟩ | ⟨rfl, rfl⟩ | ⟨rfl, rfl⟩ | ⟨rfl, rfl⟩ | ⟨rfl, rfl⟩ | ⟨rfl, rfl⟩ | ⟨rfl, rfl⟩
  · exact h.step_read_value (r := .accLo) idle rfl
  · exact h.step_read_value (r := .accHi) idle rfl
  · exact h.step_read_value idle (readRegister_tzcnt_toNat s)
  · exact h.step_read_value idle (readRegister_kcfg_toNat s)
  · exact h.step_read_value idle (readRegister_skcfg_toNat s)
  · exact h.step_read_value (r := .result) idle rfl
  · exact h.step_read_value (r := .cursor) idle rfl

/-- A read-only register ignores a write in any phase (10_state.md R24). -/
theorem HostMoves.step_write_readOnly {s s' : State} {r : Reg} {w : Word}
    (h : HostMoves s (.access (.write r.addr 8 w)) s') (notCmd : r ≠ .cmd)
    (readOnly : ∀ u, writeRegister u r w = u) : step s = .next (s'.answer .writeDone) := by
  refine h.step_write_ignored r.addr_aligned (by simpa [locate_addr] using notCmd) ?_
  rw [locate_addr, writeLocation, readOnly]

/-- Settles O29. -/
theorem readOnlyRegistersIgnoreWrites : Obligations.ReadOnlyRegistersIgnoreWrites := by
  unfold Obligations.ReadOnlyRegistersIgnoreWrites
  intro s s' a w which h
  rcases which with rfl | rfl | rfl | rfl
  · exact h.step_write_readOnly (r := .status) (by decide) fun _ => rfl
  · exact h.step_write_readOnly (r := .tzcnt) (by decide) fun _ => rfl
  · exact h.step_write_readOnly (r := .result) (by decide) fun _ => rfl
  · exact h.step_write_readOnly (r := .cursor) (by decide) fun _ => rfl

/-! The configuration registers. -/

/-- Settles O26: five bits hold min(w, 20). -/
theorem kcfgClampsAtTwenty : Obligations.KcfgClampsAtTwenty := by
  unfold Obligations.KcfgClampsAtTwenty
  intro s s' w idle h
  have clamp := writeRegister_kcfg_toNat (s'.answer .writeDone) w
  exact ⟨_, h.step_write_register (r := .kcfg) idle (by decide), clamp, (readRegister_kcfg_toNat _).trans clamp, rfl,
    .of_mem h.sameBlock.mem h.sameBlock.epoch⟩

/-- Settles O27: five bits hold the parameter, which is at most 28. -/
theorem skcfgClampsAtTheParameter : Obligations.SkcfgClampsAtTheParameter := by
  unfold Obligations.SkcfgClampsAtTheParameter
  intro s s' w idle h
  have clamp := writeRegister_skcfg_toNat (s'.answer .writeDone) w
  rw [State.answer_skipLog2Max, h.sameBlock.skipLog2Max] at clamp
  exact ⟨_, h.step_write_register (r := .skcfg) idle (by decide), clamp, (readRegister_skcfg_toNat _).trans clamp, rfl,
    .of_mem h.sameBlock.mem h.sameBlock.epoch⟩

/-! The words made of fields. -/

/-- A concatenation as a number: the high part is shifted above the low part. -/
theorem toNat_append_eq_add {m n : Nat} (x : BitVec m) (y : BitVec n) :
    (x ++ y).toNat = x.toNat * 2 ^ n + y.toNat := by
  rw [BitVec.toNat_append, ← Nat.shiftLeft_add_eq_or_of_lt y.isLt, Nat.shiftLeft_eq]

/-- TVALID as a number (10_state.md R32). -/
theorem readRegister_tvalid_toNat (s : State) :
    (readRegister s .tvalid).toNat = s.skValid.toNat * 2 + s.stValid.toNat := by
  simp only [readRegister, toNat_append_eq_add, BitVec.toNat_ofBool, BitVec.toNat_ofNat]
  omega

/-- A bit of a word as a number. -/
theorem getLsbD_toNat (w : Word) (i : Nat) : (w.getLsbD i).toNat = w.toNat / 2 ^ i % 2 := Nat.toNat_testBit _ _

/-- Settles O28: the two flags are the word's bits 0 and 1. -/
theorem tvalidHoldsTwoBits : Obligations.TvalidHoldsTwoBits := by
  unfold Obligations.TvalidHoldsTwoBits
  intro s s' w idle h
  have bit0 := getLsbD_toNat w 0
  have bit1 := getLsbD_toNat w 1
  refine ⟨_, h.step_write_register (r := .tvalid) idle (by decide), ?st, ?sk, ?read, rfl,
    .of_mem h.sameBlock.mem h.sameBlock.epoch⟩
  case st =>
    change w.getLsbD 0 = true ↔ _
    rw [← Bool.toNat_eq_one]
    omega
  case sk =>
    change w.getLsbD 1 = true ↔ _
    rw [← Bool.toNat_eq_one]
    omega
  case read =>
    rw [readRegister_tvalid_toNat]
    change (w.getLsbD 1).toNat * 2 + (w.getLsbD 0).toNat = _
    omega

/-- STATUS as a number (10_state.md R26). -/
theorem statusWord_toNat (s : State) :
    (statusWord s).toNat =
      s.busy.toNat + s.ovf.toNat * 2 + s.err.code.toNat * 2 ^ 4 + s.rkind.code.toNat * 2 ^ 8 := by
  simp only [statusWord, toNat_append_eq_add, BitVec.toNat_ofBool, BitVec.toNat_ofNat]
  omega

/-- Settles O22: the sum of the four fields, one by one. -/
theorem statusWordLayout : Obligations.StatusWordLayout := by
  unfold Obligations.StatusWordLayout
  intro s
  refine (statusWord_toNat s).trans
    (congrArg₂ (· + ·) (congrArg₂ (· + ·) (congrArg₂ (· + ·) ?busy ?ovf) ?err) ?rkind)
  case busy => cases phase : s.phase <;> simp [State.busy, phase]
  case ovf => cases s.ovf <;> rfl
  case err => cases s.err <;> rfl
  case rkind => cases s.rkind <;> rfl

/-! ## Reset -/

/-- Settles O38: each register by its reset value; without both tables a VERIFY ends at once. -/
theorem resetValues : Obligations.ResetValues := by
  unfold Obligations.ResetValues
  intro n
  refine ⟨_, rfl, rfl, rfl, rfl, rfl, rfl, rfl, rfl, rfl, rfl, rfl, rfl, rfl, rfl, rfl, rfl, rfl, rfl,
    fun _ => rfl, fun first last st sk absent => ?_⟩
  rcases execVerify_cases
      { State.resetWith n with startReg := first, endReg := last, stValid := st, skValid := sk } with
    ⟨hst, hsk, _⟩ | ⟨_, e⟩
  · change st = true at hst
    change sk = true at hsk
    simp [hst, hsk] at absent
  · exact ⟨_, e, rfl, rfl, rfl⟩

end Sys2Proof.Machine
end

section
/-! PROOFS of the family 20_memory.md: the two table windows, and what the bus does while a VERIFY runs and while the block
is idle. One rule per bus operation, then the obligations. -/

namespace Sys2Proof.Machine

/-! ## The address map, continued -/

/-- Step-table entry `j` lies at its address (20_memory.md R62). -/
theorem locate_stAddr {a : Addr} {j : Nat} (hj : j < Config.stDepth) (ha : a.toNat = stAddr j) :
    locate a = .stepEntry j := by
  have aboveRegisters : ¬ a.toNat < Config.regWindow := by
    simp only [ha, stAddr, Config.regWindow, Config.stBase]
    omega
  have inWindow : Config.stBase ≤ a.toNat ∧ a.toNat < Config.stBase + 8 * Config.stDepth := by
    simp only [ha, stAddr]
    omega
  have index : (a.toNat - Config.stBase) / 8 = j := by
    simp only [ha, stAddr]
    omega
  rw [locate, if_neg aboveRegisters, if_pos inWindow, index]

/-- Skip-table word `j` lies at its address (20_memory.md R63). -/
theorem locate_skAddr {a : Addr} {j : Nat} (ha : a.toNat = skAddr j) : locate a = .skipWord j := by
  rw [locate_eq_skipWord (ha ▸ Nat.le_add_right _ _), ha, skAddr, Nat.add_sub_cancel_left,
    Nat.mul_div_cancel_left j (by decide)]

/-- The words of the register window stand in the order of their registers' offsets (10_state.md R22). -/
theorem Reg.offset_of_ofWord {n : Nat} {r : Reg} (h : Reg.ofWord n = some r) : r.offset = 8 * n := by
  unfold Reg.ofWord at h
  split at h <;> cases h <;> rfl

/-- A register lies at no other aligned address than its own. -/
theorem eq_addr_of_locate {a : Addr} {r : Reg} (aligned : a.toNat % 8 = 0) (h : locate a = .register r) :
    a = r.addr := by
  have word : Reg.ofWord (a.toNat / 8) = some r := by
    unfold locate at h
    split at h
    · split at h <;> cases h
      assumption
    · split at h
      · cases h
      · split at h <;> cases h
  have offset : r.addr.toNat = r.offset := by cases r <;> rfl
  have := Reg.offset_of_ofWord word
  exact BitVec.eq_of_toNat_eq (by omega)

/-! ## The tables -/

/-- The word of a step-table entry is {off, mult} (20_memory.md R64). -/
theorem stOff_append_stMult (s : State) (j : Nat) : stOff s j ++ stMult s j = stWord s j := by
  have joined : stOff s j ++ stMult s j = (stWord s j).extractLsb' 0 64 :=
    BitVec.extractLsb'_append_extractLsb'_eq_extractLsb' rfl
  exact joined.trans BitVec.extractLsb'_eq_self

/-- What a location reads is of the block. -/
theorem SameBlock.readLocation {s t : State} (h : SameBlock s t) (loc : Location) :
    readLocation t loc = readLocation s loc := by
  cases loc with
  | register r => exact h.readRegister r
  | stepEntry j => exact stWord_congr h.tables j
  | skipWord j =>
    have implemented : skipImplemented t j = skipImplemented s j := by
      rw [skipImplemented, skipImplemented, h.skipLog2Max]
    rw [Machine.readLocation, Machine.readLocation, implemented, skEntry_congr h.tables]
  | reserved => rfl
  | unmapped => rfl

/-- A read of an idle block answers what the location held before the step. -/
theorem HostMoves.step_read_location {s s' : State} {a : Addr} (h : HostMoves s (.access (.read a 8)) s')
    (idle : s.phase = .idle) (aligned : a.toNat % 8 = 0) :
    step s = .next (s'.answer (.readData (readLocation s (locate a)))) := by
  rw [h.step_read_idle idle aligned, h.sameBlock.readLocation]

/-- The host's turn and its answer leave every table byte alone. -/
theorem HostMoves.tables_answer {s s' : State} {op : HostOp} (h : HostMoves s op s') (r : BusResponse) :
    SameTables s (s'.answer r) :=
  (h.sameBlock.trans (SameBlock.answer s' r)).tables

/-- Settles O31: the write is `State.writeStep`, the read `stWord`. -/
theorem stepTableWritesAndReads : Obligations.StepTableWritesAndReads := by
  unfold Obligations.StepTableWritesAndReads
  intro s s' j a idle hj ha
  have loc : locate a = .stepEntry j := locate_stAddr hj ha
  have aligned : a.toNat % 8 = 0 := by omega
  constructor
  · intro w h
    have write := h.step_write_idle idle aligned (by simp [loc])
    rw [loc] at write
    refine ⟨_, write, ?mult, ?off, fun b outside => ?frame, rfl⟩
    case mult => rw [writeLocation, stMult, stWord_writeStep_same]
    case off => rw [writeLocation, stOff, stWord_writeStep_same]
    case frame =>
      rw [writeLocation, tableByte_writeStep, if_neg (by omega)]
      exact h.tables_answer _ b
  · intro h
    rw [h.step_read_location idle aligned, loc, stOff_append_stMult]
    rfl

/-- Settles O32: the entry is implemented, the write is `State.writeSkip`, the read `skEntry`. -/
theorem skipTableWritesAndReads : Obligations.SkipTableWritesAndReads := by
  unfold Obligations.SkipTableWritesAndReads
  intro s s' j a idle hj ha
  have loc : locate a = .skipWord j := locate_skAddr ha
  have aligned : a.toNat % 8 = 0 := by omega
  constructor
  · intro w h
    have implemented : skipImplemented (s'.answer .writeDone) j = true := by
      rw [skipImplemented_eq_true, State.answer_skipLog2Max, h.sameBlock.skipLog2Max]
      exact hj
    have write := h.step_write_idle idle aligned (by simp [loc])
    rw [loc, writeLocation, if_pos implemented] at write
    refine ⟨_, write, ?entry, fun b outside => ?frame, rfl⟩
    case entry => rw [skEntry_writeSkip_same, BitVec.extractLsb'_toNat, Nat.shiftRight_zero]
    case frame =>
      rw [tableByte_writeSkip, if_neg outside]
      exact h.tables_answer _ b
  · intro h
    rw [h.step_read_location idle aligned, loc, readLocation, if_pos ((skipImplemented_eq_true s j).mpr hj)]
    rfl

/-! ## Refused accesses -/

/-- An access is refused exactly when it is not 8 bytes wide or not at a multiple of 8 (20_memory.md R67). -/
theorem admitted_eq_false (a : Access) : a.admitted = false ↔ a.size ≠ 8 ∨ a.addr.toNat % 8 ≠ 0 := by
  rw [← Bool.not_eq_true, admitted_eq_true, not_and_or]

theorem HostMoves.step_refused_access {s s' : State} {a : Access} (h : HostMoves s (.access a) s')
    (refused : a.admitted = false) : step s = .fault .busError := by
  rw [h.step_access]
  simp [performAccess, refused]

/-- A step of the host agent goes on unless its next operation is an access that is refused (60_exceptions.md R220). -/
theorem hostStep_next_or_busError (s : State) :
    (∃ t, hostStep s = .next t) ∨
    ∃ a rest, s.host = .access a :: rest ∧ a.admitted = false ∧ hostStep s = .fault .busError := by
  rcases hostStep_cases s with ⟨_, e⟩ | refused | ⟨_, _, _, _, e⟩ | ⟨addr, w, rest, _, _, e⟩ | ⟨_, _, e⟩ | ⟨_, _, e⟩
  · exact .inl ⟨_, e⟩
  · exact .inr refused
  · exact .inl ⟨_, e⟩
  · obtain ⟨t, written⟩ := performWrite_next (s.withHost rest) (locate addr) w
    exact .inl ⟨t, e.trans written⟩
  · exact .inl ⟨_, e⟩
  · exact .inl ⟨_, e⟩

/-- A step goes on unless it is the host's turn and its next access is refused. -/
theorem step_next_or_busError (s : State) :
    (∃ t, step s = .next t) ∨
    ∃ a s', HostMoves s (.access a) s' ∧ a.admitted = false ∧ step s = .fault .busError := by
  rcases step_cases s with ⟨idle, e⟩ | ⟨busy, left, ⟨_, sched, e⟩ | ⟨_, e⟩⟩
  · rw [e]
    rcases hostStep_next_or_busError (s.withSched s.sched) with next | ⟨a, rest, pending, refused, fault⟩
    · exact .inl next
    · exact .inr ⟨a, _, .of_idle idle pending, refused, fault⟩
  · rw [e]
    rcases hostStep_next_or_busError (s.withSched left) with next | ⟨a, rest, pending, refused, fault⟩
    · exact .inl next
    · exact .inr ⟨a, _, ⟨rest, pending, .inr ⟨busy, left, sched, rfl⟩⟩, refused, fault⟩
  · exact .inl ⟨_, e⟩

/-- Settles O33: of the two outcomes of a step only the second is no next state. -/
theorem onlyBadAccessesStopAStep : Obligations.OnlyBadAccessesStopAStep := by
  unfold Obligations.OnlyBadAccessesStopAStep
  refine ⟨fun s s' a h bad => h.step_refused_access ((admitted_eq_false a).mpr bad), fun s f e => ?_, fun s r e => ?_⟩
  · rcases step_next_or_busError s with ⟨_, next⟩ | ⟨a, s', h, refused, _⟩
    · cases e.symm.trans next
    · exact ⟨a, s', h, (admitted_eq_false a).mp refused⟩
  · rcases step_next_or_busError s with ⟨_, next⟩ | ⟨_, _, _, _, fault⟩
    · cases e.symm.trans next
    · cases e.symm.trans fault

/-! ## While a VERIFY runs -/

/-- A busy block drops a write to any location (20_memory.md R70). -/
theorem HostMoves.step_write_busy {s s' : State} {a : Addr} {w : Word} (h : HostMoves s (.access (.write a 8 w)) s')
    (busy : s.phase ≠ .idle) (aligned : a.toNat % 8 = 0) : step s = .next (s'.answer .writeDone) := by
  rw [h.step_write aligned]
  rcases performWrite_cases s' (locate a) w with ⟨_, e⟩ | ⟨idle, _⟩ | ⟨idle, _⟩
  · exact e
  · exact absurd (h.sameBlock.phase.symm.trans idle) busy
  · exact absurd (h.sameBlock.phase.symm.trans idle) busy

/-- An access that does not stop the step is admitted. -/
theorem HostMoves.admitted_of_next {s s' t : State} {a : Access} (h : HostMoves s (.access a) s')
    (e : step s = .next t) : a.size = 8 ∧ a.addr.toNat % 8 = 0 := by
  rw [← admitted_eq_true, ← Bool.not_eq_false]
  intro refused
  cases e.symm.trans (h.step_refused_access refused)

/-- An access to a busy block that does not stop the step leaves the block alone. -/
theorem HostMoves.access_keeps_busy_block {s s' t : State} {a : Access} (h : HostMoves s (.access a) s')
    (busy : s.phase ≠ .idle) (e : step s = .next t) : SameBlock s t := by
  obtain ⟨size, aligned⟩ := h.admitted_of_next e
  cases a with
  | read addr n =>
    obtain rfl : n = 8 := size
    cases (h.step_read aligned).symm.trans e
    exact h.sameBlock.trans (performRead_keeps s' (locate addr)).1
  | write addr n w =>
    obtain rfl : n = 8 := size
    cases (h.step_write_busy busy aligned).symm.trans e
    exact h.sameBlock.trans (SameBlock.answer s' _)

/-- A poll leaves the block alone in any phase (30_encoding.md R96). -/
theorem HostMoves.poll_keeps_block {s s' t : State} (h : HostMoves s .poll s') (e : step s = .next t) :
    SameBlock s t := by
  obtain ⟨u, rest, pending, rfl, turn⟩ := h.step_eq_hostStep
  have before : SameBlock s u := h.sameBlock.trans (SameBlock.withHost u rest).symm
  rw [turn, hostStep, pending] at e
  cases e
  split
  · exact before.trans (SameBlock.answer u _)
  · exact h.sameBlock.trans (SameBlock.answer _ _)

/-- Settles O34: by the operation whose turn it is. -/
theorem runningVerifyDropsWrites : Obligations.RunningVerifyDropsWrites := by
  unfold Obligations.RunningVerifyDropsWrites
  refine ⟨fun s s' a w busy aligned h => h.step_write_busy busy aligned, fun s s' t op busy h noReset e => ?_⟩
  cases op with
  | access a => exact h.access_keeps_busy_block busy e
  | poll => exact h.poll_keeps_block e
  | reset => exact absurd rfl noReset

/-! ## Reads -/

/-- Taking the operation and the turn draws no free read. -/
theorem HostMoves.draws {s s' : State} {op : HostOp} (h : HostMoves s op s') : s'.draws = s.draws := by
  obtain ⟨_, _, ⟨_, rfl⟩ | ⟨_, _, _, rfl⟩⟩ := h <;> rfl

/-- A read of STATUS answers the current STATUS in any phase (20_memory.md R71). -/
theorem HostMoves.step_read_status {s s' : State} (h : HostMoves s (.access (.read Reg.status.addr 8)) s') :
    step s = .next (s'.answer (.readData (statusWord s))) := by
  rw [h.step_read (Reg.addr_aligned .status), locate_addr]
  rcases performRead_cases s' (.register .status) with ⟨_, other, _⟩ | ⟨_, e⟩
  · exact absurd rfl other
  · rw [e, h.sameBlock.readLocation]
    rfl

/-- A read of another location of a busy block answers the next free draw (20_memory.md R71, log 6). -/
theorem HostMoves.step_read_busy {s s' : State} {a : Addr} (h : HostMoves s (.access (.read a 8)) s')
    (busy : s.phase ≠ .idle) (aligned : a.toNat % 8 = 0) (notStatus : locate a ≠ .register .status) :
    step s = .next ((s'.answer (.readData (Config.busyRead s.draws))).countDraw) := by
  rw [h.step_read aligned]
  rcases performRead_cases s' (locate a) with ⟨_, _, e⟩ | ⟨idle | status, _⟩
  · rw [e, h.draws]
  · exact absurd (h.sameBlock.phase.symm.trans idle) busy
  · exact absurd status notStatus

/-- Settles O35: only the address of STATUS is located at STATUS. -/
theorem readsWhileBusyAndIdle : Obligations.ReadsWhileBusyAndIdle := by
  unfold Obligations.ReadsWhileBusyAndIdle
  intro s s' a aligned h
  refine ⟨?status, fun busy elsewhere => ⟨Config.busyRead s.draws, ?busy⟩, fun idle => h.step_read_location idle aligned⟩
  case status =>
    rintro rfl
    exact h.step_read_status
  case busy =>
    rw [h.step_read_busy busy aligned fun status => elsewhere (eq_addr_of_locate aligned status), ← h.draws]
    rfl

end Sys2Proof.Machine
end

section
/-! PROOFS of the family 30_encoding.md: the decoder by the word's number, a write of a word to CMD, and the poll. -/

namespace Sys2Proof

/-! ## The decoder and the encoder

Everything about a command word is said by its number: below 6 it is a command's word, from 6 to 255 the opcode is not
assigned, and from 256 on a reserved bit is set (30_encoding.md R90 to R92, R94). -/

/-- Every command's word is its opcode, is well formed and decodes to it. -/
theorem roundTrip : ∀ i : Instr, Laws.RoundTrip.Statement i
  | .nop => Laws.RoundTrip.nop
  | .add => Laws.RoundTrip.add
  | .mul => Laws.RoundTrip.mul
  | .rtz => Laws.RoundTrip.rtz
  | .step => Laws.RoundTrip.step
  | .verify => Laws.RoundTrip.verify

theorem encode_toNat (i : Instr) : (encode i).toNat = i.opcode.toNat :=
  have ⟨_, toNat, _, _⟩ := roundTrip i
  toNat

theorem decode_encode (i : Instr) : decode (encode i) = .ok i :=
  have ⟨_, _, _, decoded⟩ := roundTrip i
  decoded

theorem Instr.opcode_le (i : Instr) : i.opcode.toNat ≤ 5 := by cases i <;> decide

/-- OPC as a number (30_encoding.md R90). -/
theorem opcField_toNat (w : Word) : (opcField w).toNat = w.toNat % 2 ^ 8 := by
  rw [opcField, BitVec.extractLsb'_toNat, Nat.shiftRight_zero]

/-- RSV as a number (30_encoding.md R90). -/
theorem rsvField_toNat (w : Word) : (rsvField w).toNat = w.toNat / 2 ^ 8 := by
  have := w.isLt
  rw [rsvField, BitVec.extractLsb'_toNat, Nat.shiftRight_eq_div_pow]
  omega

/-- The opcode map: the numbers below 6 are the opcodes of the six commands (30_encoding.md R92). -/
theorem decodeOpcode_cases : ∀ n : Nat,
    (∃ i : Instr, n = i.opcode.toNat ∧ decodeOpcode n = .ok i) ∨ (5 < n ∧ decodeOpcode n = .error .opcode)
  | 0 => .inl ⟨.nop, rfl, rfl⟩
  | 1 => .inl ⟨.add, rfl, rfl⟩
  | 2 => .inl ⟨.mul, rfl, rfl⟩
  | 3 => .inl ⟨.rtz, rfl, rfl⟩
  | 4 => .inl ⟨.step, rfl, rfl⟩
  | 5 => .inl ⟨.verify, rfl, rfl⟩
  | n + 6 => .inr ⟨by omega, rfl⟩

theorem decode_of_reserved {w : Word} (h : 2 ^ 8 ≤ w.toNat) : decode w = .error .reservedBits := by
  refine if_pos fun zero => ?_
  have := rsvField_toNat w
  rw [zero, BitVec.toNat_zero] at this
  omega

theorem decode_of_lt {w : Word} (h : w.toNat < 2 ^ 8) : decode w = decodeOpcode w.toNat := by
  have zero : rsvField w = 0#56 := BitVec.eq_of_toNat_eq ((rsvField_toNat w).trans (Nat.div_eq_of_lt h))
  rw [decode, if_neg (not_not.mpr zero), opcField_toNat, Nat.mod_eq_of_lt h]

/-- All that decoding can answer (30_encoding.md R91, R94): it is total, and only a command's own word is the command. -/
theorem decode_cases (w : Word) :
    (∃ i, w = encode i ∧ decode w = .ok i) ∨
    (5 < w.toNat ∧ w.toNat < 2 ^ 8 ∧ decode w = .error .opcode) ∨
    (2 ^ 8 ≤ w.toNat ∧ decode w = .error .reservedBits) := by
  rcases Nat.lt_or_ge w.toNat (2 ^ 8) with low | high
  · rw [decode_of_lt low]
    rcases decodeOpcode_cases w.toNat with ⟨i, isOpcode, e⟩ | ⟨unassigned, e⟩
    · exact .inl ⟨i, BitVec.eq_of_toNat_eq (isOpcode.trans (encode_toNat i).symm), e⟩
    · exact .inr (.inl ⟨unassigned, low, e⟩)
  · exact .inr (.inr ⟨high, decode_of_reserved high⟩)

theorem eq_encode_of_decode {w : Word} {i : Instr} (h : decode w = .ok i) : w = encode i := by
  rcases decode_cases w with ⟨_, own, e⟩ | ⟨_, _, e⟩ | ⟨_, e⟩
  · cases e.symm.trans h
    exact own
  · cases e.symm.trans h
  · cases e.symm.trans h

/-- A word is a command exactly when its number is below 6. -/
theorem exists_decode_iff (w : Word) : (∃ i, decode w = .ok i) ↔ w.toNat ≤ 5 := by
  constructor
  · rintro ⟨i, h⟩
    rw [eq_encode_of_decode h, encode_toNat]
    exact i.opcode_le
  · intro small
    rcases decode_cases w with ⟨i, _, e⟩ | ⟨_, _, _⟩ | ⟨_, _⟩
    · exact ⟨i, e⟩
    · omega
    · omega

/-- The two checks of the word together (30_encoding.md R94) leave the numbers below 6. -/
theorem wellFormedWord_iff (w : Word) : wellFormedWord w = true ↔ w.toNat ≤ 5 := by
  simp only [wellFormedWord, WordCheck.passes, Bool.and_eq_true, beq_iff_eq, decide_eq_true_eq]
  omega

/-- A word that is no command is refused. -/
theorem exists_decode_error {w : Word} (h : 5 < w.toNat) : ∃ e, decode w = .error e := by
  cases answer : decode w with
  | ok i => exact absurd ((exists_decode_iff w).mp ⟨i, answer⟩) (by omega)
  | error e => exact ⟨e, rfl⟩

end Sys2Proof

namespace Sys2Proof.Machine

/-- Settles O1: the command words are the numbers below 6. -/
theorem decodeAndEncodeAgree : Obligations.DecodeAndEncodeAgree :=
  ⟨fun i _ => decode_encode i, fun _ _ => eq_encode_of_decode,
    fun w => (wellFormedWord_iff w).trans (exists_decode_iff w).symm⟩

/-- Settles O2: three words of the map and the two ways to be refused. -/
theorem writtenWordsDecode : Obligations.WrittenWordsDecode :=
  ⟨decode_encode .nop, decode_encode .mul, decode_encode .verify, decode_of_reserved (by decide),
    decode_of_lt (by decide)⟩

/-! ## A write to CMD -/

/-- A write of a word to CMD of an idle block issues it (30_encoding.md R91). -/
theorem HostMoves.step_write_cmd {s s' : State} {w : Word} (h : HostMoves s (.access (.write Reg.cmd.addr 8 w)) s')
    (idle : s.phase = .idle) : step s = issueCommand (s'.answer .writeDone) w := by
  rw [h.step_write (Reg.addr_aligned .cmd), locate_addr]
  rcases performWrite_cases s' (.register .cmd) w with ⟨busy, _⟩ | ⟨_, _, e⟩ | ⟨_, notCmd, _⟩
  · exact absurd (h.sameBlock.phase.trans idle) busy
  · exact e
  · exact absurd rfl notCmd

/-- Settles O3: either way to be illegal puts the word's number above 5. -/
theorem illegalWordsSignalIllegal : Obligations.IllegalWordsSignalIllegal := by
  unfold Obligations.IllegalWordsSignalIllegal
  intro w illegal
  obtain ⟨e, refused⟩ := exists_decode_error (w := w) (by omega)
  refine ⟨⟨e, refused⟩, rfl, fun s s' idle h => ?_⟩
  rcases issueCommand_cases (s'.answer .writeDone) w with ⟨_, decoded, _⟩ | ⟨_, _, signalled⟩
  · cases decoded.symm.trans refused
  · exact (h.step_write_cmd idle).trans signalled

/-- Settles O4: a word that decodes is issued as its command. -/
theorem stepRunsTheDecodedCommand : Obligations.StepRunsTheDecodedCommand := by
  unfold Obligations.StepRunsTheDecodedCommand
  intro s s' w i idle h _ decoded
  rcases issueCommand_cases (s'.answer .writeDone) w with ⟨_, decoded', issued⟩ | ⟨_, refused, _⟩
  · cases decoded.symm.trans decoded'
    exact (h.step_write_cmd idle).trans issued
  · cases decoded.symm.trans refused

/-! ## The poll -/

/-- The operation whose turn it is stands before those left. -/
theorem HostMoves.host {s s' : State} {op : HostOp} (h : HostMoves s op s') : s.host = op :: s'.host := by
  obtain ⟨_, pending, ⟨_, rfl⟩ | ⟨_, _, _, rfl⟩⟩ := h <;> exact pending

/-- STATUS is of the block. -/
theorem SameBlock.statusWord {s t : State} (h : SameBlock s t) : statusWord t = statusWord s :=
  h.readRegister .status

theorem SameBlock.busy {s t : State} (h : SameBlock s t) : t.busy = s.busy := by
  rw [State.busy, State.busy, h.phase]

/-- Bit 0 of STATUS is BUSY (10_state.md R26). -/
theorem statusWord_mod_two (s : State) : (statusWord s).toNat % 2 = s.busy.toNat := by
  have := s.busy.toNat_le
  rw [statusWord_toNat]
  omega

/-- A poll answers STATUS, and stays pending exactly while the block is busy (30_encoding.md R96, log 10). -/
theorem HostMoves.step_poll {s s' : State} (h : HostMoves s .poll s') :
    ∃ t, step s = .next t ∧ t.response = .readData (statusWord s) ∧
      t.host = if s.busy then s.host else s'.host := by
  obtain ⟨u, rest, pending, rfl, turn⟩ := h.step_eq_hostStep
  have same : SameBlock s u := h.sameBlock.trans (SameBlock.withHost u rest).symm
  have hostBefore : u.host = s.host := pending.trans h.host.symm
  refine ⟨_, by rw [turn, hostStep, pending], congrArg _ same.statusWord, ?_⟩
  rw [State.answer_host, apply_ite State.host, same.busy, hostBefore]

/-- Settles O36: bit 0 of STATUS says whether the poll stays pending. -/
theorem pollWaitsForIdle : Obligations.PollWaitsForIdle := by
  unfold Obligations.PollWaitsForIdle
  intro s s' h
  obtain ⟨t, e, answer, left⟩ := h.step_poll
  refine ⟨t, e, answer, h.poll_keeps_block e, fun idle => ?idle, fun busy => ?busy⟩
  case idle =>
    rw [statusWord_mod_two, Bool.toNat_eq_zero] at idle
    simpa [idle] using left
  case busy =>
    rw [statusWord_mod_two, Bool.toNat_eq_one] at busy
    simpa [busy] using left

end Sys2Proof.Machine
end

section
/-! PROOFS of the family 40_datapath.md: NOP, ADD and MUL by the two words of the accumulator, the source's procedures for
them, and the frame of the short commands. -/

namespace Sys2Proof.Machine

/-! ## The frame -/

/-- No command writes a table byte (40_datapath.md R120). -/
theorem CommandKeeps.tables {s t : State} (h : CommandKeeps s t) : SameTables s t := SameTables.of_mem h.mem h.epoch

/-- Settles O5: NOP ends without an error and without overflow. -/
theorem nopClearsOvfAndErr : Obligations.NopClearsOvfAndErr := by
  unfold Obligations.NopClearsOvfAndErr
  exact ⟨by decide, fun s => ⟨commandDone s false, rfl, rfl, (exec_keeps .nop rfl).tables⟩⟩

/-- Settles O20: each answer of a short command writes the accumulator, the count and the two outcome fields at most. -/
theorem shortCommandsKeepTheRest : Obligations.ShortCommandsKeepTheRest := by
  unfold Obligations.ShortCommandsKeepTheRest
  intro i s short
  obtain ⟨t, e⟩ := exec_next i s
  refine ⟨t, e, ?_, (exec_keeps i e).tables⟩
  cases i with
  | nop => cases e; rfl
  | add => rcases execAdd_cases s with ⟨_, _, answer⟩ | ⟨_, answer⟩ <;> cases answer.symm.trans e <;> rfl
  | mul =>
    rcases execMul_cases s with ⟨_, answer⟩ | ⟨_, ⟨_, _, answer⟩ | ⟨_, answer⟩⟩ <;> cases answer.symm.trans e <;> rfl
  | rtz => cases e; rfl
  | step =>
    rcases execStep_cases s with ⟨_, answer⟩ | ⟨_, ⟨_, _, answer⟩ | ⟨_, answer⟩⟩ <;> cases answer.symm.trans e <;> rfl
  | verify => exact absurd rfl short

/-! ## Two words as one value -/

/-- Every number below 2^128 is the value of two words (00_scope.md R13). -/
theorem exists_words {n : Nat} (h : n < 2 ^ 128) : ∃ hi lo : Word, hi.toNat * 2 ^ 64 + lo.toNat = n :=
  ⟨BitVec.ofNat 64 (n / 2 ^ 64), BitVec.ofNat 64 n, by simp only [BitVec.toNat_ofNat]; omega⟩

/-- A 128-bit value is the pair of words of its number. -/
theorem eq_append_of_toNat {v : Wide} {hi lo : Word} (h : v.toNat = hi.toNat * 2 ^ 64 + lo.toNat) : v = hi ++ lo :=
  BitVec.eq_of_toNat_eq (h.trans (toNat_append_eq_add hi lo).symm)

/-- `ACC <- v` by words. -/
theorem State.setAcc_of_toNat (s : State) {v : Wide} {hi lo : Word} (h : v.toNat = hi.toNat * 2 ^ 64 + lo.toNat) :
    s.setAcc v = { s with accHi := hi, accLo := lo } := by
  obtain rfl := eq_append_of_toNat h
  rw [State.setAcc, BitVec.extractLsb'_append_eq_right, BitVec.extractLsb'_append_eq_left]

/-- What an exact number of two words is. -/
theorem fits128_words {n hi lo : Nat} (value : n = hi * 2 ^ 64 + lo) (h : n < 2 ^ 128) :
    fits128 n = some (wideOf hi lo) := by
  rw [fits128, if_pos h, value, wideOf]

theorem lowHalf_toNat (w : Word) : (w.extractLsb' 0 32).toNat = w.toNat % 2 ^ 32 := by
  rw [BitVec.extractLsb'_toNat, Nat.shiftRight_zero]

theorem highHalf_toNat (w : Word) : (w.extractLsb' 32 32).toNat = w.toNat / 2 ^ 32 := by
  have := w.isLt
  rw [BitVec.extractLsb'_toNat, Nat.shiftRight_eq_div_pow]
  omega

theorem highHalf_eq_zero_iff (w : Word) : w.extractLsb' 32 32 = 0#32 ↔ w.toNat < 2 ^ 32 := by
  rw [← BitVec.toNat_inj, highHalf_toNat, BitVec.toNat_ofNat]
  omega

/-! ## ADD -/

/-- A sum of two words is written (40_datapath.md R123). -/
theorem exec_add_exact (s : State) {hi lo : Word}
    (sum : hi.toNat * 2 ^ 64 + lo.toNat = s.accHi.toNat * 2 ^ 64 + s.accLo.toNat + s.opnd.toNat) :
    exec .add s = .next { s with accHi := hi, accLo := lo, ovf := false, err := .none } := by
  rcases execAdd_cases s with ⟨r, value, answer⟩ | ⟨big, _⟩
  · rw [State.acc_toNat, ← sum] at value
    rw [s.setAcc_of_toNat value] at answer
    exact answer
  · rw [State.acc_toNat] at big
    omega

/-- A sum of 2^128 or more is not (40_datapath.md R124). -/
theorem exec_add_overflow (s : State)
    (big : 2 ^ 128 ≤ s.accHi.toNat * 2 ^ 64 + s.accLo.toNat + s.opnd.toNat) :
    exec .add s = .next { s with ovf := true, err := .none } := by
  rcases execAdd_cases s with ⟨r, value, _⟩ | ⟨_, answer⟩
  · rw [State.acc_toNat] at value
    omega
  · exact answer

/-- Settles O6: a sum below 2^128 has two words. -/
theorem addIsExactOrOverflows : Obligations.AddIsExactOrOverflows := by
  unfold Obligations.AddIsExactOrOverflows
  refine fun s => ⟨fun small => ?fits, fun big => ⟨_, exec_add_overflow s big, rfl, .of_mem rfl rfl⟩⟩
  case fits =>
    obtain ⟨hi, lo, sum⟩ := exists_words small
    exact ⟨_, exec_add_exact s sum, sum, rfl, .of_mem rfl rfl⟩

/-- Settles O7: where the sum of the low words carries, and where the carry leaves the high word. -/
theorem addCornerCases : Obligations.AddCornerCases := by
  unfold Obligations.AddCornerCases
  refine fun s => ⟨fun zero => ?zero, fun carry room => ?carry, fun carry full => ?full, fun low => ?neverOverflows,
    fun high => ?someOverflows⟩
  case zero => exact exec_add_exact s (by simp [zero])
  case carry =>
    obtain ⟨hi, lo, sum⟩ :=
      exists_words (n := s.accHi.toNat * 2 ^ 64 + s.accLo.toNat + s.opnd.toNat) (by omega)
    exact ⟨_, exec_add_exact s sum, by dsimp only; omega, by dsimp only; omega, rfl⟩
  case full => exact exec_add_overflow s (by omega)
  case neverOverflows =>
    obtain ⟨hi, lo, sum⟩ :=
      exists_words (n := s.accHi.toNat * 2 ^ 64 + s.accLo.toNat + s.opnd.toNat) (by omega)
    exact ⟨_, exec_add_exact s sum, rfl⟩
  case someOverflows =>
    refine ⟨BitVec.allOnes 64, exec_add_overflow _ ?_⟩
    rw [BitVec.toNat_allOnes]
    dsimp only
    omega

/-- Settles O8: the low words carry exactly when their sum has more than 64 bits (40_datapath.md R123). -/
theorem sourceAddAgrees : Obligations.SourceAddAgrees := by
  unfold Obligations.SourceAddAgrees
  intro hi lo rhs
  rw [sourceAdd, checkedAdd, toNat_append_eq_add]
  split
  case isTrue noCarry => exact (fits128_words (by omega) (by omega)).symm
  case isFalse carry =>
    split
    case isTrue room => exact (fits128_words (by omega) (by omega)).symm
    case isFalse full => exact (fits128_eq_none.mpr (by omega)).symm

/-! ## MUL -/

/-- A product of two words is written (40_datapath.md R127). -/
theorem exec_mul_exact (s : State) {hi lo : Word} (small : s.opnd.toNat < 2 ^ 32)
    (product : hi.toNat * 2 ^ 64 + lo.toNat = (s.accHi.toNat * 2 ^ 64 + s.accLo.toNat) * s.opnd.toNat) :
    exec .mul s = .next { s with accHi := hi, accLo := lo, ovf := false, err := .none } := by
  rcases execMul_cases s with ⟨refused, _⟩ | ⟨_, ⟨r, value, answer⟩ | ⟨big, _⟩⟩
  · omega
  · rw [State.acc_toNat, ← product] at value
    rw [s.setAcc_of_toNat value] at answer
    exact answer
  · rw [State.acc_toNat, ← product] at big
    omega

/-- A product of 2^128 or more is not (40_datapath.md R127). -/
theorem exec_mul_overflow (s : State) (small : s.opnd.toNat < 2 ^ 32)
    (big : 2 ^ 128 ≤ (s.accHi.toNat * 2 ^ 64 + s.accLo.toNat) * s.opnd.toNat) :
    exec .mul s = .next { s with ovf := true, err := .none } := by
  rcases execMul_cases s with ⟨refused, _⟩ | ⟨_, ⟨r, value, _⟩ | ⟨_, answer⟩⟩
  · omega
  · rw [State.acc_toNat] at value
    omega
  · exact answer

/-- An operand of 2^32 or more is refused (40_datapath.md R128). -/
theorem exec_mul_refused (s : State) (large : 2 ^ 32 ≤ s.opnd.toNat) :
    exec .mul s = .next { s with ovf := false, err := .operand } := by
  rcases execMul_cases s with ⟨_, answer⟩ | ⟨small, _⟩
  · exact answer
  · omega

/-- Settles O9: the operand is refused by its high half, and else is its low half. -/
theorem mulIsExactOrOverflowsOrRefuses : Obligations.MulIsExactOrOverflowsOrRefuses := by
  unfold Obligations.MulIsExactOrOverflowsOrRefuses
  simp only [ne_eq, highHalf_eq_zero_iff, lowHalf_toNat, not_lt]
  refine ⟨rfl, fun s => ⟨fun large => ⟨_, exec_mul_refused s large, rfl, .of_mem rfl rfl⟩, fun small fits => ?exact,
    fun small big => ?overflow⟩⟩
  case exact =>
    obtain ⟨hi, lo, product⟩ := exists_words fits
    exact ⟨_, exec_mul_exact s small (by rw [product, Nat.mod_eq_of_lt small]), product, rfl, .of_mem rfl rfl⟩
  case overflow =>
    rw [Nat.mod_eq_of_lt small] at big
    exact ⟨_, exec_mul_overflow s small big, rfl, .of_mem rfl rfl⟩

/-- The product by words: each word's product, the high one's 64 places up. -/
theorem words_mul (hi lo r : Nat) : (hi * 2 ^ 64 + lo) * r = hi * r * 2 ^ 64 + lo * r := by ring

/-- Settles O10: the product overflows in the high word's product or in the low one's carry into it. -/
theorem mulCornerCases : Obligations.MulCornerCases := by
  unfold Obligations.MulCornerCases
  refine fun s => ⟨fun zero => ?zero, fun one => ?one, fun hi lo small => ?accZero, fun small high => ?high,
    fun small _ carry => ?carry, fun hi lo three => ?carryValues, fun hi lo two => ?twice, fun hi lo three => ?thrice,
    fun large => ?refused⟩
  case zero => exact exec_mul_exact s (by simp [zero]) (by simp [zero])
  case one => exact exec_mul_exact s (by simp [one]) (by simp [one])
  case accZero => exact exec_mul_exact s small (by simp [hi, lo])
  case high => exact exec_mul_overflow s small (by rw [words_mul]; omega)
  case carry => exact exec_mul_overflow s small (by rw [words_mul]; omega)
  case carryValues => exact exec_mul_overflow s (by rw [three]; decide) (by rw [hi, lo, three]; decide)
  case twice => exact exec_mul_exact s (by rw [two]; decide) (by rw [hi, lo, two]; decide)
  case thrice => exact exec_mul_exact s (by rw [three]; decide) (by rw [hi, lo, three]; decide)
  case refused => exact exec_mul_refused s (by rw [large]; decide)

/-- The carry by halves is the high part of the low word's product (40_datapath.md R129). -/
theorem halfCarry_eq (lo : Word) (r : Half) : halfCarry lo r = lo.toNat * r.toNat / 2 ^ 64 := by
  have halves : lo.toNat * r.toNat =
      lo.toNat / 2 ^ 32 * r.toNat * 2 ^ 32 + lo.toNat % 2 ^ 32 * r.toNat := by
    conv_lhs => rw [← Nat.div_add_mod' lo.toNat (2 ^ 32)]
    ring
  rw [halfCarry, highHalf_toNat, lowHalf_toNat, halves]
  omega

/-- Settles O11: the carry is the high part of the low word's product, and the product's words follow from it. -/
theorem sourceMulAgrees : Obligations.SourceMulAgrees := by
  unfold Obligations.SourceMulAgrees
  refine fun hi lo r => ⟨?_, halfCarry_eq lo r⟩
  rw [sourceMul, checkedMul, toNat_append_eq_add, words_mul, halfCarry_eq]
  split
  case isTrue high => exact (fits128_eq_none.mpr (by omega)).symm
  case isFalse fits =>
    split
    case isTrue noCarry => exact (fits128_words rfl (by omega)).symm
    case isFalse carry =>
      split
      case isTrue full => exact (fits128_eq_none.mpr (by omega)).symm
      case isFalse room => exact (fits128_words (by omega) (by omega)).symm

end Sys2Proof.Machine
end

section
/-! PROOFS of the family 40_datapath.md, continued: RTZ and the source's procedure for it. Everything rests on one way to
write a nonzero number, an odd number times a power of two. -/

namespace Sys2Proof.Machine

/-! ## RTZ -/

/-- The odd part of a nonzero number below 2^width and the power of two that its zeros stand for. -/
theorem exists_odd_mul {width n : Nat} (nonzero : n ≠ 0) (h : n < 2 ^ width) :
    ∃ m c, m % 2 = 1 ∧ m < 2 ^ width ∧ c < width ∧ n = m * 2 ^ c :=
  have pos := Nat.pos_of_ne_zero nonzero
  ⟨_, _, ctz_quotient_odd width n pos h, (Nat.div_le_self _ _).trans_lt h, ctz_lt width n pos h,
    (Nat.div_mul_cancel (two_pow_ctz_dvd width n)).symm⟩

/-- RTZ as the dispatch runs it. -/
theorem exec_rtz (s : State) : exec .rtz s = .next (commandDone (s.setRtz (rtz s.acc)) false) := rfl

/-- RTZ of an odd pair of words shifted left (40_datapath.md R132). -/
theorem exec_rtz_of_odd_mul (s : State) {hi lo : Word} {c : Nat} (odd : lo.toNat % 2 = 1) (bound : c < 128)
    (value : s.accHi.toNat * 2 ^ 64 + s.accLo.toNat = (hi.toNat * 2 ^ 64 + lo.toNat) * 2 ^ c) :
    exec .rtz s =
      .next { s with accHi := hi, accLo := lo, tzcnt := BitVec.ofNat 8 c, ovf := false, err := .none } := by
  obtain ⟨quotient, count⟩ :=
    rtz_of_odd_mul s.acc (hi.toNat * 2 ^ 64 + lo.toNat) c (by omega) bound (s.acc_toNat.trans value)
  have counted : (rtz s.acc).2 = BitVec.ofNat 8 c := by rw [← count, BitVec.ofNat_toNat, BitVec.setWidth_eq]
  rw [exec_rtz, State.setRtz, s.setAcc_of_toNat quotient, counted]
  rfl

/-- RTZ of zero (40_datapath.md R132). -/
theorem exec_rtz_of_zero (s : State) (hi : s.accHi = 0#64) (lo : s.accLo = 0#64) :
    exec .rtz s = .next { s with tzcnt := 128#8, ovf := false, err := .none } := by
  have zero : s.acc = 0#128 := by rw [State.acc, hi, lo]; rfl
  rw [exec_rtz, zero, rtz_zero, State.setRtz, s.setAcc_of_toNat (hi := s.accHi) (lo := s.accLo) (by simp [hi, lo])]
  rfl

/-- All that RTZ can answer (40_datapath.md R132): zero with the count 128, or an odd value with its count. -/
theorem exec_rtz_cases (s : State) :
    (s.accHi = 0#64 ∧ s.accLo = 0#64 ∧
      exec .rtz s = .next { s with tzcnt := 128#8, ovf := false, err := .none }) ∨
    (∃ (hi lo : Word) (c : Nat), lo.toNat % 2 = 1 ∧ c < 128 ∧
      s.accHi.toNat * 2 ^ 64 + s.accLo.toNat = (hi.toNat * 2 ^ 64 + lo.toNat) * 2 ^ c ∧
      exec .rtz s =
        .next { s with accHi := hi, accLo := lo, tzcnt := BitVec.ofNat 8 c, ovf := false, err := .none }) := by
  by_cases zero : s.accHi = 0#64 ∧ s.accLo = 0#64
  · obtain ⟨hi, lo⟩ := zero
    exact .inl ⟨hi, lo, exec_rtz_of_zero s hi lo⟩
  · have nonzero : s.accHi.toNat * 2 ^ 64 + s.accLo.toNat ≠ 0 := fun sum =>
      zero ⟨BitVec.eq_of_toNat_eq (by rw [BitVec.toNat_zero]; omega),
        BitVec.eq_of_toNat_eq (by rw [BitVec.toNat_zero]; omega)⟩
    obtain ⟨m, c, odd, small, bound, value⟩ := exists_odd_mul (width := 128) nonzero (by omega)
    obtain ⟨hi, lo, rfl⟩ := exists_words small
    have loOdd : lo.toNat % 2 = 1 := by omega
    exact .inr ⟨hi, lo, c, loOdd, bound, value, exec_rtz_of_odd_mul s loOdd bound value⟩

/-- Settles O12: the two answers of RTZ, as numbers. -/
theorem rtzRemovesAllTrailingZeros : Obligations.RtzRemovesAllTrailingZeros := by
  unfold Obligations.RtzRemovesAllTrailingZeros
  refine ⟨by decide, fun s => ?_⟩
  rcases exec_rtz_cases s with ⟨hi, lo, answer⟩ | ⟨hi, lo, c, odd, bound, value, answer⟩
  case inl =>
    have zero : s.accHi.toNat * 2 ^ 64 + s.accLo.toNat = 0 := by simp [hi, lo]
    exact ⟨_, answer, fun _ => ⟨zero, rfl⟩, fun nonzero => absurd zero nonzero, rfl, .of_mem rfl rfl⟩
  case inr =>
    have count : (BitVec.ofNat 8 c).toNat = c := by rw [BitVec.toNat_ofNat]; omega
    have nonzero : (hi.toNat * 2 ^ 64 + lo.toNat) * 2 ^ c ≠ 0 :=
      Nat.mul_ne_zero (by omega) (Nat.two_pow_pos c).ne'
    refine ⟨_, answer, fun zero => absurd (value.symm.trans zero) nonzero, fun _ => ⟨?_, ?_, ?_⟩, rfl, .of_mem rfl rfl⟩
    · dsimp only
      omega
    · exact count.trans_lt bound
    · dsimp only
      rw [count, value]

/-- Settles O13: each corner case names its odd value and its count. -/
theorem rtzCornerCases : Obligations.RtzCornerCases := by
  unfold Obligations.RtzCornerCases
  refine fun s => ⟨fun odd => ?odd, fun n bound power => ?power, fun lo hi => ?lowZero, exec_rtz_of_zero s⟩
  case odd => exact exec_rtz_of_odd_mul s (c := 0) odd (by omega) (by omega)
  case power => exact exec_rtz_of_odd_mul s (by decide) bound (by rw [power]; simp)
  case lowZero =>
    have nonzero : s.accHi.toNat ≠ 0 := fun zero => hi (BitVec.eq_of_toNat_eq zero)
    obtain ⟨m, c, odd, small, bound, value⟩ := exists_odd_mul nonzero s.accHi.isLt
    have word : (BitVec.ofNat 64 m).toNat = m := by rw [BitVec.toNat_ofNat, Nat.mod_eq_of_lt small]
    have shifted : s.accHi.toNat * 2 ^ 64 + s.accLo.toNat =
        ((0#64).toNat * 2 ^ 64 + (BitVec.ofNat 64 m).toNat) * 2 ^ (64 + c) := by
      rw [word, lo, value, pow_add, BitVec.toNat_zero]
      ring
    refine ⟨_, c, exec_rtz_of_odd_mul s (word.symm ▸ odd) (by omega) shifted, bound, ?_, rfl, word.symm ▸ odd,
      word.symm ▸ value⟩
    rw [BitVec.toNat_ofNat]
    omega

/-- Settles O15: the answers of RTZ are the two cases in which a second one writes the same words. -/
theorem rtzIsIdempotentOnTheValue : Obligations.RtzIsIdempotentOnTheValue := by
  unfold Obligations.RtzIsIdempotentOnTheValue
  intro s t first
  rcases exec_rtz_cases s with ⟨hi, lo, answer⟩ | ⟨hi, lo, c, odd, _, _, answer⟩ <;> cases answer.symm.trans first
  case inl =>
    exact ⟨.inr ⟨hi, lo⟩, _, exec_rtz_of_zero _ hi lo, rfl, rfl, fun odd => by simp [lo] at odd, fun _ => rfl⟩
  case inr =>
    refine ⟨.inl odd, _, exec_rtz_of_odd_mul _ (c := 0) odd (by omega) (Nat.mul_one _).symm, rfl, rfl, fun _ => rfl,
      fun even => ?_⟩
    dsimp only at even
    omega

/-! ## The source's removal by words -/

/-- The zeros of a number shifted left by `places`. -/
theorem ctz_mul_two_pow (width n : Nat) : ∀ places, ctz (width + places) (n * 2 ^ places) = ctz width n + places
  | 0 => by simp
  | places + 1 => by
    have double : n * 2 ^ (places + 1) = 2 * (n * 2 ^ places) := by ring
    rw [← Nat.add_assoc, ctz, double, if_neg (by omega), Nat.mul_div_cancel_left _ (by omega),
      ctz_mul_two_pow width n places, Nat.add_assoc]

/-- A zero low word adds 64 to the zeros of the high word (40_datapath.md R134). -/
theorem ctz128_append_zero (hi : Word) : ctz128 (hi ++ 0#64) = 64 + ctz 64 hi.toNat := by
  rw [ctz128, toNat_append_eq_add, BitVec.toNat_zero, Nat.add_zero, Nat.add_comm 64]
  exact ctz_mul_two_pow 64 hi.toNat 64

/-- A nonzero low word has the zeros of the pair. -/
theorem ctz128_append {hi lo : Word} (nonzero : lo ≠ 0#64) : ctz128 (hi ++ lo) = ctz 64 lo.toNat := by
  obtain ⟨m, c, odd, _, bound, value⟩ :=
    exists_odd_mul (fun zero => nonzero (BitVec.eq_of_toNat_eq zero)) lo.isLt
  have places : 2 ^ 64 = 2 * 2 ^ (63 - c) * 2 ^ c := by
    rw [← pow_succ', ← pow_add]
    congr 1
    omega
  have pair : hi.toNat * 2 ^ 64 + m * 2 ^ c = (2 * (hi.toNat * 2 ^ (63 - c)) + m) * 2 ^ c := by
    rw [places]
    ring
  rw [ctz128, toNat_append_eq_add, value, pair, ctz_of_odd_mul 64 c m odd bound]
  exact ctz_of_odd_mul 128 c _ (by omega) (by omega)

/-- The shift of a pair of words, the high word's low bits ORed into the low word (40_datapath.md R133). -/
theorem append_ushiftRight (hi lo : Word) {t : Nat} (bound : t ≤ 64) :
    (hi >>> t) ++ ((lo >>> t) ||| (BitVec.ofNat 64 (hi.toNat % 2 ^ t) <<< (64 - t))) = (hi ++ lo) >>> t := by
  have places : 2 ^ 64 = 2 ^ (64 - t) * 2 ^ t := by rw [← pow_add, Nat.sub_add_cancel bound]
  have lowPart : lo.toNat / 2 ^ t < 2 ^ (64 - t) :=
    Nat.div_lt_of_lt_mul (by rw [Nat.mul_comm, ← places]; exact lo.isLt)
  have moved : hi.toNat % 2 ^ t * 2 ^ (64 - t) < 2 ^ 64 := by
    rw [places, Nat.mul_comm]
    exact Nat.mul_lt_mul_of_pos_left (Nat.mod_lt _ (Nat.two_pow_pos t)) (Nat.two_pow_pos _)
  have joined : ((lo >>> t) ||| (BitVec.ofNat 64 (hi.toNat % 2 ^ t) <<< (64 - t))).toNat =
      hi.toNat % 2 ^ t * 2 ^ (64 - t) + lo.toNat / 2 ^ t := by
    have fits : hi.toNat % 2 ^ t < 2 ^ 64 := (Nat.mod_le _ _).trans_lt hi.isLt
    rw [BitVec.toNat_or, BitVec.toNat_shiftLeft, BitVec.toNat_ofNat, BitVec.toNat_ushiftRight,
      Nat.mod_eq_of_lt fits, Nat.shiftRight_eq_div_pow, Nat.shiftLeft_eq, Nat.mod_eq_of_lt moved, Nat.or_comm,
      ← Nat.shiftLeft_eq, Nat.shiftLeft_add_eq_or_of_lt lowPart]
  have parts : hi.toNat * 2 ^ 64 + lo.toNat =
      2 ^ t * (hi.toNat / 2 ^ t * 2 ^ 64 + hi.toNat % 2 ^ t * 2 ^ (64 - t)) + lo.toNat := by
    conv_lhs => rw [← Nat.div_add_mod' hi.toNat (2 ^ t), Nat.add_mul]
    rw [show hi.toNat % 2 ^ t * 2 ^ 64 = hi.toNat % 2 ^ t * (2 ^ (64 - t) * 2 ^ t) by rw [places]]
    ring
  apply BitVec.eq_of_toNat_eq
  rw [toNat_append_eq_add, joined, BitVec.toNat_ushiftRight, BitVec.toNat_ushiftRight, toNat_append_eq_add, parts,
    Nat.shiftRight_eq_div_pow, Nat.shiftRight_eq_div_pow, Nat.mul_add_div (Nat.two_pow_pos t), Nat.add_assoc]

/-- The source's shift counts the zeros of the low word and shifts the pair by them. -/
theorem sourceShift_eq (hi lo : Word) (base : Nat) (h : lo = 0#64 → hi = 0#64) :
    sourceShift hi lo base = ((hi ++ lo) >>> ctz 64 lo.toNat, base + ctz 64 lo.toNat) := by
  rw [sourceShift]
  split
  case isTrue all =>
    have zero : lo = 0#64 := by
      by_contra nonzero
      have pos := Nat.pos_of_ne_zero fun zero => nonzero (BitVec.eq_of_toNat_eq zero)
      exact (ctz_lt 64 lo.toNat pos lo.isLt).ne all
    rw [h zero, zero, BitVec.zero_append_zero, BitVec.zero_ushiftRight]
  case isFalse =>
    split
    case isTrue noZeros => rw [noZeros, BitVec.ushiftRight_zero]
    case isFalse => rw [append_ushiftRight hi lo (ctz_le 64 lo.toNat)]

/-- The exchange of a zero low word is a shift by a whole word. -/
theorem append_zero_ushiftRight (hi : Word) : (hi ++ 0#64) >>> 64 = 0#64 ++ hi := by
  apply BitVec.eq_of_toNat_eq
  rw [BitVec.toNat_ushiftRight, toNat_append_eq_add, toNat_append_eq_add, Nat.shiftRight_eq_div_pow,
    BitVec.toNat_zero]
  omega

/-- Settles O14: the source's shift removes the zeros of the low word it is given, and a zero low word stands for 64 more
(40_datapath.md R133). -/
theorem sourceRtzAgrees : Obligations.SourceRtzAgrees := by
  unfold Obligations.SourceRtzAgrees
  intro hi lo
  rw [rtz_count, rtz, sourceRtz]
  split
  case isTrue zero =>
    rw [sourceShift_eq 0#64 hi 64 fun _ => rfl, zero, ctz128_append_zero, BitVec.shiftRight_add,
      append_zero_ushiftRight]
  case isFalse nonzero =>
    rw [sourceShift_eq hi lo 0 fun zero => absurd zero nonzero, ctz128_append nonzero, Nat.zero_add]

end Sys2Proof.Machine
end

section
/-! PROOFS of the family 41_sequencer.md: STEP, the two answers of VERIFY, and the transitions of the sequencer one by
one. -/

namespace Sys2Proof.Machine

/-! ## STEP

STEP is RTZ on the sum of the fused step, so its cases are those of RTZ. -/

/-- A STEP whose sum fits is RTZ with the sum in ACC (41_sequencer.md R150, R152). -/
theorem exec_step_eq_exec_rtz {s : State} {q : Wide} (present : s.stValid = true) (sum : q.toNat = fusedSum s s.acc) :
    exec .step s = exec .rtz (s.setAcc q) := by
  rcases execStep_cases s with ⟨absent, _⟩ | ⟨_, ⟨q', sum', answer⟩ | ⟨big, _⟩⟩
  · cases absent.symm.trans present
  · obtain rfl := BitVec.eq_of_toNat_eq (sum'.trans sum.symm)
    rw [exec_rtz, State.setAcc_acc]
    exact answer
  · have := q.isLt
    omega

/-- A STEP whose sum has more than 128 bits overflows (41_sequencer.md R152). -/
theorem exec_step_overflow {s : State} (present : s.stValid = true) (big : 2 ^ 128 ≤ fusedSum s s.acc) :
    exec .step s = .next { s with ovf := true, err := .none } := by
  rcases execStep_cases s with ⟨absent, _⟩ | ⟨_, ⟨q, sum, _⟩ | ⟨_, answer⟩⟩
  · cases absent.symm.trans present
  · have := q.isLt
    omega
  · exact answer

/-- STEP without a step table (41_sequencer.md R152). -/
theorem exec_step_noTable {s : State} (absent : s.stValid = false) :
    exec .step s = .next { s with ovf := false, err := .noTable } := by
  rcases execStep_cases s with ⟨_, answer⟩ | ⟨present, _⟩
  · exact answer
  · cases absent.symm.trans present

/-- Settles O16: a product of 2^128 or more makes the sum so large too, and a sum that fits loses its zeros as in
RTZ. -/
theorem stepIsTheFusedStep : Obligations.StepIsTheFusedStep := by
  unfold Obligations.StepIsTheFusedStep
  refine ⟨by decide, fun s => ⟨fun absent => ⟨_, exec_step_noTable absent, rfl, .of_mem rfl rfl⟩, ?_⟩⟩
  rintro v i m o p q present value rfl rfl rfl rfl rfl
  rw [← State.acc_toNat] at value
  subst value
  refine ⟨fun big => ?overflow, fun _ fits => ?fits⟩
  case overflow =>
    have sum : 2 ^ 128 ≤ fusedSum s s.acc := big.elim (fun product => product.trans (Nat.le_add_right _ _)) id
    exact ⟨_, exec_step_overflow present sum, rfl, .of_mem rfl rfl⟩
  case fits =>
    have sum : (BitVec.ofNat 128 (fusedSum s s.acc)).toNat = fusedSum s s.acc := by
      rw [BitVec.toNat_ofNat]
      exact Nat.mod_eq_of_lt fits
    rw [exec_step_eq_exec_rtz present sum]
    have removed := rtzRemovesAllTrailingZeros.2 (s.setAcc (BitVec.ofNat 128 (fusedSum s s.acc)))
    rw [← State.acc_toNat, State.setAcc_acc, sum] at removed
    exact removed

/-- ACC written with its own value. -/
theorem State.setAcc_self (s : State) : s.setAcc s.acc = s := s.setAcc_of_toNat s.acc_toNat

/-- A STEP whose product is 0 gives the offset without its zeros (41_sequencer.md R153). -/
theorem exec_step_of_product_zero {s : State} (present : s.stValid = true)
    (zero : s.acc.toNat / 2 ^ s.k.toNat * (stMult s (stepIndex s s.acc)).toNat = 0) :
    exec .step s =
      .next (commandDone (s.setRtz (rtz ((stOff s (stepIndex s s.acc)).setWidth 128))) false) := by
  have sum : ((stOff s (stepIndex s s.acc)).setWidth 128).toNat = fusedSum s s.acc := by
    rw [fusedSum, zero, BitVec.toNat_setWidth]
    omega
  rw [exec_step_eq_exec_rtz present sum, exec_rtz, State.setAcc_acc]
  rfl

/-- A STEP whose sum is ACC itself is RTZ (41_sequencer.md R153). -/
theorem exec_step_of_sum_eq_acc {s : State} (present : s.stValid = true) (sum : s.acc.toNat = fusedSum s s.acc) :
    exec .step s = exec .rtz s := by rw [exec_step_eq_exec_rtz present sum, State.setAcc_self]

/-- Settles O17: each corner case names the sum of the fused step. -/
theorem stepCornerCases : Obligations.StepCornerCases := by
  unfold Obligations.StepCornerCases
  refine fun s present => ⟨fun small => ?small, fun zero mult off => ?zero, fun k even mult off => ?rtz,
    fun mult => ?multZero, fun big => ?overflow, fun k acc mult off => ?reference⟩
  case small => exact exec_step_of_product_zero present (by rw [Nat.div_eq_of_lt small, Nat.zero_mul])
  case zero =>
    have index : stepIndex s s.acc = 0 := by rw [stepIndex, zero]; exact Nat.zero_mod _
    rw [exec_step_of_sum_eq_acc present (by rw [fusedSum, index, mult, off, zero]; simp)]
    have value := s.acc_toNat
    rw [zero, BitVec.toNat_zero] at value
    exact exec_rtz_of_zero s (BitVec.eq_of_toNat_eq (by rw [BitVec.toNat_zero]; omega))
      (BitVec.eq_of_toNat_eq (by rw [BitVec.toNat_zero]; omega))
  case rtz =>
    have index : stepIndex s s.acc = 0 := by rw [stepIndex, k]; exact even
    exact exec_step_of_sum_eq_acc present (by rw [fusedSum, index, mult, off, k]; simp)
  case multZero =>
    exact exec_step_of_product_zero present (by rw [stepIndex, kidx, mult, BitVec.toNat_zero, Nat.mul_zero])
  case overflow =>
    refine ⟨exec_step_overflow present (big.trans (Nat.le_add_right _ _)), ?_⟩
    by_contra low
    have product := Nat.mul_le_mul (not_lt.mp low)
      (Nat.le_sub_one_of_lt (stMult s (s.acc.toNat % 2 ^ max s.k.toNat 1)).isLt)
    omega
  case reference =>
    have index : stepIndex s s.acc = 3 := by rw [stepIndex, k, acc]; decide
    have sum : (31#128).toNat = fusedSum s s.acc := by rw [fusedSum, index, mult, off, k, acc]; decide
    rw [exec_step_eq_exec_rtz present sum]
    exact exec_rtz_of_odd_mul (s.setAcc 31#128) (hi := 0#64) (lo := 31#64) (c := 0) (by decide) (by decide)
      (by rw [← State.acc_toNat, State.setAcc_acc]; decide)

/-! ## VERIFY at acceptance -/

/-- START rounded up sets the two low bits (41_sequencer.md R157). -/
theorem firstCandidate_toNat (start : Word) : (firstCandidate start).toNat = start.toNat / 4 * 4 + 3 := by
  have high : (firstCandidate start).toNat / 2 ^ 2 = start.toNat / 2 ^ 2 := by
    rw [firstCandidate, BitVec.toNat_or, Nat.or_div_two_pow]
    exact Nat.or_zero _
  have low : (firstCandidate start).toNat % 2 ^ 2 = 3 := by
    rw [firstCandidate, BitVec.toNat_or, Nat.or_mod_two_pow]
    have bound : start.toNat % 2 ^ 2 < 2 ^ 2 := Nat.mod_lt _ (by decide)
    generalize start.toNat % 2 ^ 2 = r at bound
    decide +revert
  omega

/-- Settles O18: START rounded up differs from START by less than 4. -/
theorem verifyIsAccepted : Obligations.VerifyIsAccepted := by
  unfold Obligations.VerifyIsAccepted
  refine ⟨rfl, fun s st sk => ?_⟩
  rcases execVerify_cases s with ⟨_, _, answer⟩ | ⟨absent, _⟩
  · have cursor := firstCandidate_toNat s.startReg
    exact ⟨_, answer, by simp only [startVerify, commandDone]; omega, by simp only [startVerify, commandDone]; omega,
      by simp only [startVerify, commandDone]; omega, rfl, .of_mem rfl rfl⟩
  · simp [st, sk] at absent

/-- Settles O19: the other answer of VERIFY. -/
theorem verifyWithoutTablesIsEmpty : Obligations.VerifyWithoutTablesIsEmpty := by
  unfold Obligations.VerifyWithoutTablesIsEmpty
  intro s idle absent
  rcases execVerify_cases s with ⟨st, sk, _⟩ | ⟨_, answer⟩
  · simp [st, sk] at absent
  · exact ⟨_, answer, idle, rfl, rfl, .of_mem rfl rfl⟩

/-! ## The transitions by phase -/

theorem seqStep_of_idle {s : State} (idle : s.phase = .idle) : seqStep s = s := by rw [seqStep, idle]

theorem seqStep_of_outer {s : State} (outer : s.phase = .outer) : seqStep s = outerStep s := by rw [seqStep, outer]

theorem seqStep_of_inner {s : State} (inner : s.phase = .inner) : seqStep s = innerStep s := by rw [seqStep, inner]

theorem seqStep_of_skip {s : State} (skip : s.phase = .skip) : seqStep s = skipStep s := by rw [seqStep, skip]

/-! ## The sequencer's turn -/

/-- Taking the turn changes at most the interleaving. -/
theorem SequencerMoves.eq_withSched {s s' : State} (h : SequencerMoves s s') : s' = s.withSched s'.sched := by
  obtain ⟨_, ⟨_, rfl⟩ | ⟨_, _, rfl⟩ | ⟨_, _, _, rfl⟩⟩ := h <;> rfl

/-- The agent chosen on the sequencer's turn, and the interleaving that is left (41_sequencer.md R158). -/
theorem SequencerMoves.chooseAgent_eq {s s' : State} (h : SequencerMoves s s') :
    chooseAgent s = (.sequencer, s'.sched) := by
  obtain ⟨busy, turn⟩ := h
  rw [chooseAgent, if_pos ((State.busy_eq_true s).mpr busy)]
  rcases turn with ⟨nothing, rfl⟩ | ⟨waiting, unsaid, rfl⟩ | ⟨waiting, left, named, rfl⟩
  · rw [nothing]
  · obtain ⟨op, rest, pending⟩ := List.exists_cons_of_ne_nil waiting
    rw [pending, unsaid]
  · obtain ⟨op, rest, pending⟩ := List.exists_cons_of_ne_nil waiting
    rw [pending, named]

/-- On the sequencer's turn a step is one transition (41_sequencer.md R158). -/
theorem SequencerMoves.step_eq {s s' : State} (h : SequencerMoves s s') : step s = .next (seqStep s') := by
  rw [step, machineStep, h.chooseAgent_eq, ← h.eq_withSched]

/-- Settles O41: a busy block with nothing pending, or with an empty interleaving, leaves the turn to the sequencer;
else the interleaving names the agent. -/
theorem sequencerTurnIsOneTransition : Obligations.SequencerTurnIsOneTransition := by
  unfold Obligations.SequencerTurnIsOneTransition
  refine ⟨fun s s' turn => turn.step_eq, fun s busy => ?_, fun s idle => seqStep_of_idle idle⟩
  cases pending : s.host with
  | nil => exact .inl ⟨s, busy, .inl ⟨pending, rfl⟩⟩
  | cons op rest =>
    have waiting : s.host ≠ [] := by simp [pending]
    cases turns : s.sched with
    | nil => exact .inl ⟨s, busy, .inr (.inl ⟨waiting, turns, rfl⟩)⟩
    | cons agent left =>
      cases agent with
      | host => exact .inr ⟨op, _, rest, pending, .inr ⟨busy, left, turns, rfl⟩⟩
      | sequencer => exact .inl ⟨_, busy, .inr (.inr ⟨waiting, left, turns, rfl⟩)⟩

/-! ## The transitions one by one -/

/-- `ACC <- zext_128(w)` by words (41_sequencer.md R159). -/
theorem State.setAcc_setWidth (s : State) (w : Word) :
    s.setAcc (w.setWidth 128) = { s with accHi := 0#64, accLo := w } := by
  refine s.setAcc_of_toNat ?_
  rw [BitVec.toNat_setWidth, BitVec.toNat_zero]
  omega

/-- Settles O42: the two answers of the range test. -/
theorem outerTransition : Obligations.OuterTransition := by
  unfold Obligations.OuterTransition
  refine ⟨rfl, fun s s' turn outer => ?_⟩
  obtain ⟨left, rfl⟩ : ∃ left, s' = s.withSched left := ⟨_, turn.eq_withSched⟩
  rw [turn.step_eq, seqStep_of_outer (s := s.withSched left) outer]
  rcases outerStep_cases (s.withSched left) with ⟨above, e⟩ | ⟨inRange, e⟩ <;> rw [e]
  · exact ⟨fun _ => rfl, fun inRange => absurd inRange above.not_ge⟩
  · refine ⟨fun above => absurd above inRange.not_gt, fun _ => ?_⟩
    rw [State.setAcc_setWidth]
    rfl

/-- The exit test on the 128-bit value, by words (41_sequencer.md R160). -/
theorem acc_lt_cursor_iff (s : State) :
    s.acc.toNat < s.cursor.toNat ↔ s.accHi = 0#64 ∧ s.accLo.toNat < s.cursor.toNat := by
  rw [State.acc_toNat, ← BitVec.toNat_inj, BitVec.toNat_zero]
  omega

/-- CURSOR - 1 as a number (41_sequencer.md R161). -/
theorem toNat_sub_one_add_one {w : Word} (positive : 0 < w.toNat) : (w - 1#64).toNat + 1 = w.toNat := by bv_omega

/-- Settles O43: the exit test by words, then the two answers of the fused step. -/
theorem innerTransition : Obligations.InnerTransition := by
  unfold Obligations.InnerTransition
  refine ⟨rfl, fun s s' turn inner => ?_⟩
  obtain ⟨left, rfl⟩ : ∃ left, s' = s.withSched left := ⟨_, turn.eq_withSched⟩
  rw [turn.step_eq, seqStep_of_inner (s := s.withSched left) inner]
  refine ⟨fun high low => ?exit, fun stays => ?iterate⟩
  case exit =>
    rcases innerStep_cases (s.withSched left) with ⟨_, e⟩ | ⟨above, _⟩
    · rw [e]
      rfl
    · exact absurd ((acc_lt_cursor_iff s).mpr ⟨high, low⟩) above.not_gt
  case iterate =>
    rcases innerStep_cases (s.withSched left) with ⟨below, _⟩ | ⟨_, ⟨q, _, fits, e⟩ | ⟨_, overflows, e⟩⟩
    · obtain ⟨high, low⟩ := (acc_lt_cursor_iff s).mp below
      exact absurd low (stays.resolve_left (not_not.mpr high)).not_gt
    · refine ⟨fun v c step => ?_, fun overflows => ?_⟩
      · cases fits.symm.trans step
        rw [e]
        rfl
      · cases fits.symm.trans overflows
    · refine ⟨fun v c step => ?_, fun _ positive => ?_⟩
      · cases overflows.symm.trans step
      · exact ⟨_, by rw [e], toNat_sub_one_add_one (Nat.zero_lt_of_lt positive), rfl⟩

theorem State.advanceCursor_of_forbidden (s : State) {n : Word} (forbidden : forbiddenResidue n = true) :
    advanceCursor s n = { s with cursor := n, phase := .skip } := by rw [advanceCursor, if_pos forbidden]

theorem State.advanceCursor_of_allowed (s : State) {n : Word} (allowed : forbiddenResidue n = false) :
    advanceCursor s n = { s with cursor := n, phase := .outer } := by rw [advanceCursor, allowed]; rfl

/-- Settles O44: the sum in 64 bits decides between the wrap and the residue test. -/
theorem skipTransition : Obligations.SkipTransition := by
  unfold Obligations.SkipTransition
  refine ⟨rfl, ?_⟩
  rintro s s' e n turn skip rfl sum
  have target : (skipTarget s s.cursor).toNat = n := (skipTarget_toNat s s.cursor).trans sum.symm
  have word : skipTarget s s.cursor = BitVec.ofNat 64 n := by rw [← target, BitVec.ofNat_toNat, BitVec.setWidth_eq]
  obtain ⟨left, rfl⟩ : ∃ left, s' = s.withSched left := ⟨_, turn.eq_withSched⟩
  rw [turn.step_eq, seqStep_of_skip (s := s.withSched left) skip, ← word]
  subst target
  rw [← forbiddenResidue_eq_true]
  rcases skipStep_cases (s.withSched left) with ⟨below, e⟩ | ⟨above, e⟩ <;> rw [e]
  · exact ⟨fun _ => rfl, fun above => absurd below above.not_gt, fun above => absurd below above.not_gt⟩
  · refine ⟨fun below => absurd below above.not_gt, fun _ forbidden => ?_, fun _ allowed => ?_⟩
    · exact congrArg _ ((s.withSched left).advanceCursor_of_forbidden forbidden)
    · exact congrArg _ ((s.withSched left).advanceCursor_of_allowed (Bool.eq_false_of_not_eq_true allowed))

/-- Settles O50: a skip of 0 stays at the candidate, which OUTER takes up again. -/
theorem zeroSkipVerifiesAgain : Obligations.ZeroSkipVerifiesAgain := by
  unfold Obligations.ZeroSkipVerifiesAgain
  intro s skip resolved inRange zero allowed
  have target : skipTarget s s.cursor = s.cursor := by
    rw [skipTarget, zero]
    exact BitVec.add_zero _
  have skipped : seqStep s = { s with phase := .outer } := by
    rw [seqStep_of_skip skip]
    rcases skipStep_cases s with ⟨below, _⟩ | ⟨_, e⟩
    · rw [target, resolved] at below
      exact absurd below (Nat.lt_irrefl _)
    · rw [e, target, State.advanceCursor_of_allowed _ allowed]
  rw [seqSteps, seqSteps, seqSteps, skipped, seqStep_of_outer rfl]
  rcases outerStep_cases { s with phase := .outer } with ⟨above, _⟩ | ⟨_, e⟩
  · exact absurd above inRange.not_gt
  · rw [e, State.setAcc_setWidth]
    rfl

/-! ## The end of a run -/

/-- The three transitions that end a run (41_sequencer.md R159, R161, R163). -/
theorem seqStep_ends_cases {s : State} (busy : s.phase ≠ .idle) (ends : (seqStep s).phase = .idle) :
    (s.phase = .outer ∧ s.endReg.toNat < s.cursor.toNat ∧ seqStep s = finishVerify s s.endReg .complete) ∨
    (s.phase = .inner ∧ fusedStep s s.acc = none ∧
      seqStep s = (finishVerify s (s.cursor - 1#64) .overflow).raiseOvf) ∨
    (s.phase = .skip ∧ seqStep s = finishVerify s s.prev .wrap) := by
  cases phase : s.phase with
  | idle => exact absurd phase busy
  | outer =>
    rw [seqStep_of_outer phase] at ends ⊢
    rcases outerStep_cases s with ⟨above, e⟩ | ⟨_, e⟩ <;> rw [e] at ends ⊢
    · exact .inl ⟨rfl, above, rfl⟩
    · cases ends
  | inner =>
    rw [seqStep_of_inner phase] at ends ⊢
    rcases innerStep_cases s with ⟨_, e⟩ | ⟨_, ⟨_, _, _, e⟩ | ⟨_, overflows, e⟩⟩ <;> rw [e] at ends ⊢
    · cases ends
    · exact absurd ends busy
    · exact .inr (.inl ⟨rfl, overflows, rfl⟩)
  | skip =>
    rw [seqStep_of_skip phase] at ends ⊢
    rcases skipStep_cases s with ⟨_, e⟩ | ⟨_, e⟩ <;> rw [e] at ends ⊢
    · exact .inr (.inr ⟨rfl, rfl⟩)
    · rcases advanceCursor_phase_cases s (skipTarget s s.cursor) with ⟨_, p⟩ | ⟨_, p⟩ <;> cases p.symm.trans ends

/-- Settles O47: END itself, the value below a candidate that lies in the range, or PREV, which does. -/
theorem resultNeverExceedsEnd : Obligations.ResultNeverExceedsEnd := by
  unfold Obligations.ResultNeverExceedsEnd
  intro s inv busy ends
  obtain ⟨_, _, _, _, _, low⟩ := inv.running busy
  rcases seqStep_ends_cases busy ends with ⟨_, _, e⟩ | ⟨inner, _, e⟩ | ⟨skip, e⟩ <;> rw [e]
  · exact Nat.le_refl _
  · have below : (s.cursor - 1#64).toNat + 1 = s.cursor.toNat := toNat_sub_one_add_one (Nat.zero_lt_of_lt low)
    exact (Nat.le_of_succ_le below.le).trans (inv.innerRange inner)
  · obtain ⟨_, inRange, _⟩ := inv.skipRange skip
    exact inRange

/-- Settles O48: one transition of each phase ends a run, and the invariant gives ERR and OVF before it. -/
theorem endOfARun : Obligations.EndOfARun := by
  unfold Obligations.EndOfARun
  rintro s t inv busy rfl ends
  obtain ⟨_, _, ovf, err, _, low⟩ := inv.running busy
  refine ⟨(seqStep_keeps s).err.trans err, ?_⟩
  rcases seqStep_ends_cases busy ends with ⟨_, above, e⟩ | ⟨_, overflows, e⟩ | ⟨_, e⟩ <;> rw [e]
  · exact ⟨by simp [ovf], rfl, .inl ⟨rfl, rfl, above⟩⟩
  · exact ⟨by simp, rfl, .inr (.inl ⟨rfl, toNat_sub_one_add_one (Nat.zero_lt_of_lt low), overflows⟩)⟩
  · exact ⟨by simp [ovf], rfl, .inr (.inr ⟨rfl, rfl⟩)⟩

/-! ## Runs that do not end -/

/-- An INNER transition at or above CURSOR whose fused step fits (41_sequencer.md R161). -/
theorem seqStep_of_fits {s : State} {r : Wide × Byte} (inner : s.phase = .inner)
    (above : s.cursor.toNat ≤ s.acc.toNat) (fits : fusedStep s s.acc = some r) : seqStep s = s.setRtz r := by
  rw [seqStep_of_inner inner]
  rcases innerStep_cases s with ⟨below, _⟩ | ⟨_, ⟨q, _, fits', e⟩ | ⟨_, overflows, _⟩⟩
  · exact absurd below above.not_gt
  · rw [e, Option.some.inj (fits'.symm.trans fits)]
  · cases overflows.symm.trans fits

/-- A fixed point of the fused step stays where it is: each transition writes the count only (41_sequencer.md R166). -/
theorem seqSteps_of_fixed_point (n : Nat) {s : State} {c : Byte} (inner : s.phase = .inner)
    (above : s.cursor.toNat ≤ s.acc.toNat) (fixed : fusedStep s s.acc = some (s.acc, c)) :
    (seqSteps n s).phase = .inner := by
  induction n generalizing s with
  | zero => exact inner
  | succ n ih =>
    rw [seqSteps, seqStep_of_fits inner above fixed, State.setRtz, State.setAcc_self]
    exact ih (s := s.setTzcnt c) inner above fixed

/-- A fused step whose sum is an odd number times a power of two (41_sequencer.md R150). -/
theorem fusedStep_of_odd_mul {s : State} {v m : Wide} {c : Nat} (odd : m.toNat % 2 = 1) (bound : c < 128)
    (sum : fusedSum s v = m.toNat * 2 ^ c) (fits : fusedSum s v < 2 ^ 128) :
    fusedStep s v = some (m, BitVec.ofNat 8 c) := by
  rcases fusedStep_cases s v with ⟨q, value, answer⟩ | ⟨big, _⟩
  · obtain ⟨quotient, count⟩ := rtz_of_odd_mul q m.toNat c odd bound (value.trans sum)
    rw [answer, ← BitVec.eq_of_toNat_eq quotient, ← count, BitVec.ofNat_toNat, BitVec.setWidth_eq]
  · omega

/-- The sum of the rule's example at an odd value: K = 1 with the entry (2^32 - 1, 2^32 - 1) (41_sequencer.md R166). -/
theorem fusedSum_of_all_ones {s : State} {v : Wide} (k : s.k = 1#5) (mult : stMult s 1 = 0xFFFFFFFF#32)
    (off : stOff s 1 = 0xFFFFFFFF#32) (odd : v.toNat % 2 = 1) :
    fusedSum s v = v.toNat / 2 * 0xFFFFFFFF + 0xFFFFFFFF := by
  have index : stepIndex s v = 1 := by
    rw [stepIndex, k]
    exact odd
  rw [fusedSum, index, mult, off, k]
  rfl

/-- Settles O49: the rule's example goes from 3 to 2^32 - 1 in one transition, which is a fixed point. -/
theorem fixedPointsRunForEver : Obligations.FixedPointsRunForEver := by
  unfold Obligations.FixedPointsRunForEver
  refine ⟨fun s c inner above fixed n => seqSteps_of_fixed_point n inner above fixed,
    fun s inner k cursor acc ones n => ?_⟩
  obtain ⟨mult, off⟩ := ones 1 (by decide)
  have sum3 := fusedSum_of_all_ones (v := 3#128) k mult off (by decide)
  have sumOnes := fusedSum_of_all_ones (v := 0xFFFFFFFF#128) k mult off (by decide)
  have first : fusedStep s 3#128 = some (0xFFFFFFFF#128, 1#8) :=
    fusedStep_of_odd_mul (c := 1) (by decide) (by decide) (by rw [sum3]; decide) (by rw [sum3]; decide)
  have fixed : fusedStep s 0xFFFFFFFF#128 = some (0xFFFFFFFF#128, 31#8) :=
    fusedStep_of_odd_mul (c := 31) (by decide) (by decide) (by rw [sumOnes]; decide) (by rw [sumOnes]; decide)
  cases n with
  | zero => exact inner
  | succ n =>
    rw [seqSteps, seqStep_of_fits inner (by rw [acc, cursor]; decide) (acc ▸ first)]
    refine seqSteps_of_fixed_point (s := s.setRtz _) (c := 31#8) n inner ?_ ?_ <;> rw [State.setRtz_acc]
    · rw [State.setRtz_cursor, cursor]
      decide
    · exact fixed

end Sys2Proof.Machine
end

section
/-! PROOFS of the family 41_sequencer.md, continued: a run of the sequencer computes the function of R165. The key is
one function, `remaining`: what is left to compute in any state of the run. A transition of the sequencer takes one unit
of its fuel and does not change its value. -/

namespace Sys2Proof.Machine

/-! ## What the function of R165 reads

Besides START and TVALID, which it reads once, the function reads END, K, L and the tables. -/

/-- `t` has the END, K, L and tables of `s` (41_sequencer.md R165). -/
structure SameInputs (s t : State) : Prop where
  k : t.k = s.k
  l : t.l = s.l
  endReg : t.endReg = s.endReg
  tables : SameTables s t

/-- No sequencer step writes an input of the function (41_sequencer.md R165). -/
theorem sameInputs_seqStep (s : State) : SameInputs s (seqStep s) :=
  have keeps := seqStep_keeps s
  ⟨keeps.k, keeps.l, keeps.endReg, .of_mem keeps.mem keeps.epoch⟩

theorem CommandKeeps.sameInputs {s t : State} (h : CommandKeeps s t) : SameInputs s t :=
  ⟨h.k, h.l, h.endReg, h.tables⟩

section
variable {s t : State} (same : SameInputs s t)
include same

theorem SameInputs.fusedStep_eq (v : Wide) : fusedStep t v = fusedStep s v := by
  simp only [fusedStep, stepShifted, stepIndex, stMult, stOff, same.k, stWord_congr same.tables]

theorem SameInputs.skipTarget_eq (c : Word) : skipTarget t c = skipTarget s c := by
  simp only [skipTarget, skipAmount, skipIndex, same.l, skEntry_congr same.tables]

theorem SameInputs.trajectoryDrops_eq (c : Word) :
    ∀ (fuel : Nat) (v : Wide), trajectoryDrops t c fuel v = trajectoryDrops s c fuel v
  | 0, _ => rfl
  | fuel + 1, v => by
    rw [trajectoryDrops, trajectoryDrops, same.fusedStep_eq]
    simp only [SameInputs.trajectoryDrops_eq c fuel]

theorem SameInputs.skipChain_eq (prev : Word) :
    ∀ (fuel : Nat) (c : Word), skipChain t prev fuel c = skipChain s prev fuel c
  | 0, _ => rfl
  | fuel + 1, c => by
    rw [skipChain, skipChain, same.skipTarget_eq, SameInputs.skipChain_eq prev fuel]

theorem SameInputs.verifyFrom_eq (budget : Nat) :
    ∀ (fuel : Nat) (c : Word), verifyFrom t budget fuel c = verifyFrom s budget fuel c
  | 0, _ => rfl
  | fuel + 1, c => by
    rw [verifyFrom, verifyFrom, same.endReg, same.trajectoryDrops_eq, same.skipChain_eq]
    simp only [SameInputs.verifyFrom_eq budget fuel]

end

/-! ## What is left of the function within a run -/

/-- The function after the skips of candidate `c`, with at most `fuel` candidates to come (41_sequencer.md R165). -/
def afterSkips (s : State) (budget fuel : Nat) (c : Word) : Option (Option Word) → Option (Word × ResultKind)
  | none => none
  | some none => some (c, .wrap)
  | some (some n) => verifyFrom s budget fuel n

/-- The function after the trajectory of candidate `c`, with at most `fuel` candidates to come (R165). -/
def afterTrajectory (s : State) (budget fuel : Nat) (c : Word) : Option Bool → Option (Word × ResultKind)
  | none => none
  | some false => some (c - 1#64, .overflow)
  | some true => afterSkips s budget fuel c (skipChain s c budget c)

/-- What the function of R165 has left to compute in the state `s` of a run: at most `fuel` candidates to come, `tests`
more tests in the loop at hand and `budget` tests in each later loop. -/
def remaining (budget fuel tests : Nat) (s : State) : Option (Word × ResultKind) :=
  match s.phase with
  | .idle => some (s.result, s.rkind)
  | .outer => verifyFrom s budget fuel s.cursor
  | .inner => afterTrajectory s budget fuel s.cursor (trajectoryDrops s s.cursor tests s.acc)
  | .skip => afterSkips s budget fuel s.prev (skipChain s s.prev tests s.cursor)

section
variable {s : State} (budget fuel tests : Nat)

theorem remaining_of_idle (idle : s.phase = .idle) : remaining budget fuel tests s = some (s.result, s.rkind) := by
  rw [remaining, idle]

theorem remaining_of_outer (outer : s.phase = .outer) :
    remaining budget fuel tests s = verifyFrom s budget fuel s.cursor := by rw [remaining, outer]

theorem remaining_of_inner (inner : s.phase = .inner) :
    remaining budget fuel tests s =
      afterTrajectory s budget fuel s.cursor (trajectoryDrops s s.cursor tests s.acc) := by rw [remaining, inner]

theorem remaining_of_skip (skip : s.phase = .skip) :
    remaining budget fuel tests s = afterSkips s budget fuel s.prev (skipChain s s.prev tests s.cursor) := by
  rw [remaining, skip]

theorem SameInputs.afterSkips_eq {t : State} (same : SameInputs s t) (c : Word) (r : Option (Option Word)) :
    afterSkips t budget fuel c r = afterSkips s budget fuel c r := by
  cases r with
  | none => rfl
  | some next =>
    cases next with
    | none => rfl
    | some n => exact same.verifyFrom_eq budget fuel n

theorem SameInputs.afterTrajectory_eq {t : State} (same : SameInputs s t) (c : Word) (r : Option Bool) :
    afterTrajectory t budget fuel c r = afterTrajectory s budget fuel c r := by
  cases r with
  | none => rfl
  | some drops =>
    cases drops with
    | false => rfl
    | true => simp only [afterTrajectory, same.skipChain_eq, same.afterSkips_eq]

/-- One candidate of the outer loop (41_sequencer.md R165). -/
theorem verifyFrom_succ (c : Word) :
    verifyFrom s budget (fuel + 1) c =
      if c.toNat > s.endReg.toNat then some (s.endReg, .complete)
      else afterTrajectory s budget fuel c (trajectoryDrops s c budget (c.setWidth 128)) := rfl

/-! ### One transition takes one unit of fuel -/

/-- An OUTER transition is one candidate of the outer loop (41_sequencer.md R159). -/
theorem remaining_outerStep (outer : s.phase = .outer) :
    remaining budget (fuel + 1) tests s = remaining budget fuel budget (seqStep s) := by
  have same := sameInputs_seqStep s
  rw [remaining_of_outer _ _ _ outer, verifyFrom_succ]
  rw [seqStep_of_outer outer] at same ⊢
  rcases outerStep_cases s with ⟨above, e⟩ | ⟨inRange, e⟩ <;> rw [e] at same ⊢
  · rw [if_pos above, remaining_of_idle _ _ _ rfl]
    rfl
  · rw [if_neg (by omega), remaining_of_inner _ _ _ rfl, same.afterTrajectory_eq, same.trajectoryDrops_eq]
    have tracked : ((s.setAcc (s.cursor.setWidth 128)).setPhase .inner).acc = s.cursor.setWidth 128 := s.setAcc_acc _
    rw [tracked]
    rfl

/-- An INNER transition is one test of the trajectory loop (41_sequencer.md R160, R161). -/
theorem remaining_innerStep (inner : s.phase = .inner) :
    remaining budget fuel (tests + 1) s =
      remaining budget fuel (if (seqStep s).phase = .inner then tests else budget) (seqStep s) := by
  have same := sameInputs_seqStep s
  rw [remaining_of_inner _ _ _ inner, trajectoryDrops]
  rw [seqStep_of_inner inner] at same ⊢
  rcases innerStep_cases s with ⟨below, e⟩ | ⟨above, ⟨q, _, fits, e⟩ | ⟨_, overflows, e⟩⟩ <;> rw [e] at same ⊢
  · rw [if_pos below, if_neg (by simp), remaining_of_skip _ _ _ rfl, same.afterSkips_eq, same.skipChain_eq]
    rfl
  · have stays : (s.setRtz (rtz q)).phase = .inner := inner
    rw [if_neg (by omega), fits, if_pos stays, remaining_of_inner _ _ _ stays, same.afterTrajectory_eq,
      same.trajectoryDrops_eq, State.setRtz_acc, State.setRtz_cursor]
  · rw [if_neg (by omega), overflows, remaining_of_idle _ _ _ rfl]
    rfl

/-- A SKIP transition is one skip of the chain (41_sequencer.md R163, R164). -/
theorem remaining_skipStep (skip : s.phase = .skip) :
    remaining budget fuel (tests + 1) s =
      remaining budget fuel (if (seqStep s).phase = .skip then tests else budget) (seqStep s) := by
  have same := sameInputs_seqStep s
  rw [remaining_of_skip _ _ _ skip, skipChain]
  rw [seqStep_of_skip skip] at same ⊢
  rcases skipStep_cases s with ⟨below, e⟩ | ⟨above, e⟩ <;> rw [e] at same ⊢
  · rw [if_pos below, remaining_of_idle _ _ _ rfl]
    rfl
  · rw [if_neg (by omega)]
    rcases advanceCursor_phase_cases s (skipTarget s s.cursor) with ⟨forbidden, p⟩ | ⟨allowed, p⟩
    · rw [forbidden, if_pos rfl, if_pos p, remaining_of_skip _ _ _ p, same.afterSkips_eq, same.skipChain_eq]
      rfl
    · rw [allowed, if_neg Bool.false_ne_true, remaining_of_outer _ _ _ p, same.verifyFrom_eq]
      rfl

end

/-! ## A run ends with the pair of the function -/

/-- The sequencer reaches an idle state from `s`, with the pair `r` in RESULT and RKIND. -/
def EndsWith (s : State) (r : Word × ResultKind) : Prop :=
  ∃ n, (seqSteps n s).phase = .idle ∧ (seqSteps n s).result = r.1 ∧ (seqSteps n s).rkind = r.2

theorem EndsWith.of_seqStep {s : State} {r : Word × ResultKind} (h : EndsWith (seqStep s) r) : EndsWith s r :=
  have ⟨n, ends⟩ := h
  ⟨n + 1, ends⟩

/-- How far a phase is from the next candidate: a transition within one candidate never goes up. -/
def Phase.rank : Phase → Nat
  | .idle => 0
  | .outer => 1
  | .skip => 2
  | .inner => 3

/-- A transition that leaves a loop of the candidate goes on to a later phase (R160, R163, R164). -/
theorem rank_seqStep_lt {s : State} (loop : s.phase = .inner ∨ s.phase = .skip) (leaves : (seqStep s).phase ≠ s.phase) :
    (seqStep s).phase.rank < s.phase.rank := by
  rcases loop with inner | skip
  · rw [inner] at leaves ⊢
    cases next : (seqStep s).phase <;> simp_all [Phase.rank]
  · rw [seqStep_of_skip skip] at leaves ⊢
    rcases skipStep_cases s with ⟨_, e⟩ | ⟨_, e⟩ <;> rw [e] at leaves ⊢
    · rw [skip]
      exact Nat.two_pos
    · rcases advanceCursor_phase_cases s (skipTarget s s.cursor) with ⟨_, p⟩ | ⟨_, p⟩ <;> rw [p, skip] at leaves ⊢
      · exact absurd rfl leaves
      · decide

/-- A transition of either loop of a candidate is one test of that loop (41_sequencer.md R165). -/
theorem remaining_loopStep {s : State} (loop : s.phase = .inner ∨ s.phase = .skip) (budget fuel tests : Nat) :
    remaining budget fuel (tests + 1) s =
      remaining budget fuel (if (seqStep s).phase = s.phase then tests else budget) (seqStep s) := by
  rcases loop with inner | skip
  · rw [inner, remaining_innerStep _ _ _ inner]
  · rw [skip, remaining_skipStep _ _ _ skip]

/-- Without a test left, neither loop of a candidate answers. -/
theorem remaining_loop_zero {s : State} (loop : s.phase = .inner ∨ s.phase = .skip) (budget fuel : Nat) :
    remaining budget fuel 0 s = none := by
  rcases loop with inner | skip
  · exact remaining_of_inner _ _ _ inner
  · exact remaining_of_skip _ _ _ skip

theorem Phase.idle_or_outer_or_loop (p : Phase) : p = .idle ∨ p = .outer ∨ p = .inner ∨ p = .skip := by
  cases p <;> simp

/-- Where the function has an answer left, the run ends with it: every transition goes to fewer candidates, to a later
phase of the candidate, or to fewer tests. -/
theorem endsWith_of_remaining {budget fuel tests : Nat} {s : State} {r : Word × ResultKind}
    (left : remaining budget fuel tests s = some r) : EndsWith s r := by
  rcases s.phase.idle_or_outer_or_loop with idle | outer | loop
  · rw [remaining_of_idle _ _ _ idle] at left
    cases left
    exact ⟨0, idle, rfl, rfl⟩
  · cases fuel with
    | zero =>
      rw [remaining_of_outer _ _ _ outer] at left
      cases left
    | succ fuel =>
      rw [remaining_outerStep _ _ _ outer] at left
      exact .of_seqStep (endsWith_of_remaining left)
  · cases tests with
    | zero => cases (remaining_loop_zero loop budget fuel).symm.trans left
    | succ tests =>
      rw [remaining_loopStep loop] at left
      exact .of_seqStep (endsWith_of_remaining left)
termination_by (fuel, s.phase.rank, tests)
decreasing_by
  · exact .left _ _ (by omega)
  · by_cases stays : (seqStep s).phase = s.phase
    · rw [if_pos stays, stays]
      exact .right _ (.right _ (by omega))
    · exact .right _ (.left _ _ (rank_seqStep_lt loop stays))

/-- A run that is idle after `n` transitions: the function has ended with its pair within fuel `n`. -/
theorem remaining_of_idle_after {n budget fuel tests : Nat} {s : State} (ends : (seqSteps n s).phase = .idle)
    (budgeted : n ≤ budget) (fueled : n ≤ fuel) (tested : n ≤ tests) :
    remaining budget fuel tests s = some ((seqSteps n s).result, (seqSteps n s).rkind) := by
  induction n generalizing fuel tests s with
  | zero => exact remaining_of_idle _ _ _ ends
  | succ n ih =>
    rcases s.phase.idle_or_outer_or_loop with idle | outer | loop
    · rw [seqSteps_idle _ idle, remaining_of_idle _ _ _ idle]
    · obtain ⟨fuel, rfl⟩ := Nat.exists_eq_add_of_le' fueled
      rw [← Nat.add_assoc, remaining_outerStep _ _ _ outer]
      exact ih ends (by omega) (by omega) (by omega)
    · obtain ⟨tests, rfl⟩ := Nat.exists_eq_add_of_le' tested
      rw [← Nat.add_assoc, remaining_loopStep loop]
      exact ih ends (by omega) (by omega) (by split <;> omega)

/-- At acceptance all of the function is left, in either answer of VERIFY (41_sequencer.md R156, R157). -/
theorem verifyFunction_eq_remaining {s t : State} (idle : s.phase = .idle) (accepted : exec .verify s = .next t)
    (fuel : Nat) : verifyFunction fuel s = remaining fuel fuel fuel t := by
  have same := (exec_keeps .verify accepted).sameInputs
  rcases execVerify_cases s with ⟨st, sk, e⟩ | ⟨absent, e⟩ <;> cases e.symm.trans accepted
  · rw [verifyFunction, st, sk, remaining_of_outer _ _ _ rfl, same.verifyFrom_eq]
    rfl
  · rw [verifyFunction, if_neg (by rcases absent with st | sk <;> simp [*])]
    exact (remaining_of_idle (s := emptyVerify (commandDone s false)) _ _ _ idle).symm

/-- Settles O45: at acceptance the function is what `remaining` says, which is answered exactly when the run ends. -/
theorem verifyIsTheFunctionOfItsRule : Obligations.VerifyIsTheFunctionOfItsRule := by
  unfold Obligations.VerifyIsTheFunctionOfItsRule
  intro s t idle accepted
  refine ⟨fun fuel v k ended => ?ends, fun n ends => ⟨n, ?ended⟩⟩
  case ends =>
    rw [verifyFunction_eq_remaining idle accepted] at ended
    exact endsWith_of_remaining ended
  case ended =>
    rw [verifyFunction_eq_remaining idle accepted]
    exact remaining_of_idle_after ends le_rfl le_rfl le_rfl

end Sys2Proof.Machine
end

section
/-! PROOFS of the family 48_host_tables.md: the iterates of T and the step table. Adding a multiple of 2^n to a value
keeps the branches of its first n fused steps, so T^n of the sum is affine in the multiple, and the step table holds its
two coefficients; the accelerated resolution test is the case n = 1 to 4. -/

namespace Sys2Proof.Machine

/-! ## The iterates of T -/

/-- The factor one fused step multiplies by before it halves (00_scope.md R16). -/
def oddFactor (v : Nat) : Nat := if v % 2 = 1 then 3 else 1

/-- The product of the factors of the first `n` fused steps of `v`: 3^(number of odd steps) (48_host_tables.md R191). -/
def oddMult : (n v : Nat) → Nat
  | 0, _ => 1
  | n + 1, v => oddFactor v * oddMult n (fusedT v)

theorem stepRounds_succ (n v m : Nat) : stepRounds (n + 1) v m = stepRounds n (fusedT v) (oddFactor v * m) := by
  rw [stepRounds, fusedT, oddFactor]
  split
  · rfl
  · rw [Nat.one_mul]

/-- The loop of R191 gathers the factors and iterates T. -/
theorem stepRounds_eq (n v m : Nat) : stepRounds n v m = (oddMult n v * m, fusedT^[n] v) := by
  induction n generalizing v m with
  | zero => rw [oddMult, Nat.one_mul]; rfl
  | succ n ih => rw [stepRounds_succ, ih, oddMult, Function.iterate_succ_apply, mul_left_comm, mul_assoc]

theorem oddFactor_le (v : Nat) : oddFactor v ≤ 3 := by
  unfold oddFactor
  split <;> omega

theorem oddMult_le (n v : Nat) : oddMult n v ≤ 3 ^ n := by
  induction n generalizing v with
  | zero => exact le_rfl
  | succ n ih =>
    rw [oddMult, pow_succ']
    exact Nat.mul_le_mul (oddFactor_le v) (ih _)

/-- An even offset does not change the branch of a fused step. -/
theorem fusedT_two_mul_add (x v : Nat) : fusedT (2 * x + v) = oddFactor v * x + fusedT v := by
  unfold fusedT oddFactor
  split <;> split <;> omega

/-- The first `n` fused steps of `q * 2^n + v` take the branches of those of `v` (48_host_tables.md R193). -/
theorem fusedT_iterate_add (n q v : Nat) : fusedT^[n] (q * 2 ^ n + v) = oddMult n v * q + fusedT^[n] v := by
  induction n generalizing q v with
  | zero => simp [oddMult]
  | succ n ih =>
    have even : q * 2 ^ (n + 1) + v = 2 * (q * 2 ^ n) + v := by ring
    have next : oddFactor v * (q * 2 ^ n) + fusedT v = (oddFactor v * q) * 2 ^ n + fusedT v := by ring
    rw [Function.iterate_succ_apply, even, fusedT_two_mul_add, next, ih, Function.iterate_succ_apply, oddMult]
    ring

theorem oddFactor_mul_le (v : Nat) : oddFactor v * v ≤ 2 * fusedT v := by
  unfold fusedT oddFactor
  split <;> omega

/-- `n` fused steps take a value down by no more than the ratio of the factors to 2^n. -/
theorem oddMult_mul_le (n v : Nat) : oddMult n v * v ≤ 2 ^ n * fusedT^[n] v := by
  induction n generalizing v with
  | zero => exact le_rfl
  | succ n ih =>
    calc oddMult (n + 1) v * v = oddMult n (fusedT v) * (oddFactor v * v) := by rw [oddMult]; ring
      _ ≤ oddMult n (fusedT v) * (2 * fusedT v) := Nat.mul_le_mul_left _ (oddFactor_mul_le v)
      _ = 2 * (oddMult n (fusedT v) * fusedT v) := by ring
      _ ≤ 2 * (2 ^ n * fusedT^[n] (fusedT v)) := Nat.mul_le_mul_left _ (ih _)
      _ = 2 ^ (n + 1) * fusedT^[n + 1] v := by rw [Function.iterate_succ_apply]; ring

theorem two_mul_fusedT_le (v : Nat) : 2 * (fusedT v + 1) ≤ 3 * (v + 1) := by
  unfold fusedT
  split <;> omega

/-- `n` fused steps take the successor of a value up by at most (3/2)^n. -/
theorem two_pow_mul_iterate_le (n v : Nat) : 2 ^ n * (fusedT^[n] v + 1) ≤ 3 ^ n * (v + 1) := by
  induction n generalizing v with
  | zero => exact le_rfl
  | succ n ih =>
    calc 2 ^ (n + 1) * (fusedT^[n + 1] v + 1) = 2 * (2 ^ n * (fusedT^[n] (fusedT v) + 1)) := by
          rw [Function.iterate_succ_apply]; ring
      _ ≤ 2 * (3 ^ n * (fusedT v + 1)) := Nat.mul_le_mul_left _ (ih _)
      _ = 3 ^ n * (2 * (fusedT v + 1)) := by ring
      _ ≤ 3 ^ n * (3 * (v + 1)) := Nat.mul_le_mul_left _ (two_mul_fusedT_le v)
      _ = 3 ^ (n + 1) * (v + 1) := by ring

/-- A value with `n` ones at the bottom takes the odd branch `n` times (48_host_tables.md R194, R203). -/
theorem fusedT_iterate_ones (n : Nat) {c : Nat} (positive : 0 < c) : fusedT^[n] (c * 2 ^ n - 1) = c * 3 ^ n - 1 := by
  induction n generalizing c with
  | zero => rfl
  | succ n ih =>
    have ones : fusedT (2 * (c * 2 ^ n) - 1) = 3 * (c * 2 ^ n) - 1 := by
      have : 0 < c * 2 ^ n := by positivity
      unfold fusedT
      split <;> omega
    have even : c * 2 ^ (n + 1) = 2 * (c * 2 ^ n) := by ring
    have triple : 3 * (c * 2 ^ n) = 3 * c * 2 ^ n := by ring
    rw [Function.iterate_succ_apply, even, ones, triple, ih (by omega)]
    congr 1
    ring

/-! ## The reference step table -/

/-- An entry of the reference table for K ≥ 1 (48_host_tables.md R191). -/
theorem refStepEntry_eq {k : Nat} (positive : 1 ≤ k) (i : Nat) : refStepEntry k i = (oddMult k i, fusedT^[k] i) := by
  rw [refStepEntry, if_neg (by omega), stepRounds_eq, Nat.mul_one]

theorem fusedT_iterate_lt {k i : Nat} (h : i < 2 ^ k) : fusedT^[k] i < 3 ^ k := by
  have := two_pow_mul_iterate_le k i
  refine Nat.le_of_mul_le_mul_left (this.trans ?_) (Nat.two_pow_pos k)
  rw [Nat.mul_comm]
  exact Nat.mul_le_mul_right _ h

/-- Settles O53: the factors are at most 3 each, and no value below 2^K grows beyond the last one. -/
theorem referenceEntriesFit : Obligations.ReferenceEntriesFit := by
  unfold Obligations.ReferenceEntriesFit
  intro k positive
  have fits : k ≤ Config.kMax → 3 ^ k < 2 ^ 32 := fun h =>
    (Nat.pow_le_pow_right (by decide) h).trans_lt (by decide)
  refine ⟨fun i hi => ?entries, ?last⟩
  case entries =>
    have mult := oddMult_le k i
    have off := fusedT_iterate_lt hi
    rw [refStepEntry_eq positive]
    exact ⟨mult, Nat.le_sub_one_of_lt off, fun h => ⟨mult.trans_lt (fits h), off.trans (fits h)⟩⟩
  case last =>
    rw [refStepEntry_eq positive]
    simpa using fusedT_iterate_ones k (c := 1) Nat.one_pos

theorem stepIndex_lt (s : State) (v : Wide) : stepIndex s v < 2 ^ kidx s.k.toNat := Nat.mod_lt _ (Nat.two_pow_pos _)

/-- The sum of a fused step with the reference table loaded (41_sequencer.md R150). -/
theorem fusedSum_of_loaded {s : State} (loaded : RefStepTableLoaded s) (v : Wide) :
    fusedSum s v = v.toNat / 2 ^ s.k.toNat * (refStepEntry s.k.toNat (stepIndex s v)).1
      + (refStepEntry s.k.toNat (stepIndex s v)).2 := by
  obtain ⟨mult, off⟩ := loaded _ (stepIndex_lt s v)
  rw [fusedSum, mult, off]

/-- For K ≥ 1 the sum is T^K of the value: the index is what the shift cuts off (48_host_tables.md R193). -/
theorem fusedSum_eq_iterate {s : State} (loaded : RefStepTableLoaded s) (positive : 1 ≤ s.k.toNat) (v : Wide) :
    fusedSum s v = fusedT^[s.k.toNat] v.toNat := by
  have index : stepIndex s v = v.toNat % 2 ^ s.k.toNat := by rw [stepIndex, kidx, max_eq_left positive]
  rw [fusedSum_of_loaded loaded, refStepEntry_eq positive, index, Nat.mul_comm, ← fusedT_iterate_add,
    Nat.div_add_mod']

/-- For K = 0 the sum is 3v + 1 for an odd value and the value itself for an even one (48_host_tables.md R192). -/
theorem fusedSum_of_k_zero {s : State} (loaded : RefStepTableLoaded s) (zero : s.k.toNat = 0) (v : Wide) :
    fusedSum s v = if v.toNat % 2 = 1 then 3 * v.toNat + 1 else v.toNat := by
  have index : stepIndex s v = v.toNat % 2 := by rw [stepIndex, zero]; rfl
  rw [fusedSum_of_loaded loaded, index, zero, refStepEntry, if_pos rfl]
  split <;> split <;> omega

/-- A halving does not change what is left when the zeros are removed. -/
theorem rtz_value_of_two_mul {p q : Wide} (double : p.toNat = 2 * q.toNat) : (rtz p).1 = (rtz q).1 := by
  rcases rtz_cases q with ⟨rfl, _⟩ | ⟨_, odd, _, value⟩
  · rw [BitVec.eq_of_toNat_eq (x := p) (y := 0#128) double]
  · generalize (rtz q).2.toNat = c at value
    have shifted : p.toNat = (rtz q).1.toNat * 2 ^ (c + 1) := by rw [double, value]; ring
    have bound : c + 1 < 128 := by
      refine (Nat.pow_lt_pow_iff_right (a := 2) (by decide)).mp (lt_of_le_of_lt ?_ p.isLt)
      rw [shifted]
      exact Nat.le_mul_of_pos_left _ (by omega)
    exact BitVec.eq_of_toNat_eq (rtz_of_odd_mul p _ _ odd bound shifted).1

/-- Settles O52. -/
theorem referenceTableIteratesT : Obligations.ReferenceTableIteratesT := by
  unfold Obligations.ReferenceTableIteratesT
  intro s v r c loaded fits
  obtain ⟨p, sum, answer⟩ : ∃ p : Wide, p.toNat = fusedSum s v ∧ (r, c) = rtz p := by
    rcases fusedStep_cases s v with ⟨p, sum, e⟩ | ⟨_, e⟩
    · exact ⟨p, sum, Option.some.inj (fits.symm.trans e)⟩
    · cases fits.symm.trans e
  refine ⟨fun positive => ⟨p, sum.trans (fusedSum_eq_iterate loaded positive v), answer⟩, fun zero => ?_⟩
  have value : r = (rtz p).1 := congrArg Prod.fst answer
  rw [fusedSum_of_k_zero loaded zero] at sum
  by_cases odd : v.toNat % 2 = 1
  · rw [if_pos odd] at sum
    exact ⟨p, by rw [sum, collatz, if_pos odd], value⟩
  · rw [if_neg odd] at sum
    have half : (v >>> 1).toNat = v.toNat / 2 := by simp [Nat.shiftRight_eq_div_pow]
    exact ⟨v >>> 1, by rw [half, collatz, if_neg odd], value.trans (rtz_value_of_two_mul (by omega))⟩

/-! ## The resolution test -/

theorem dropsBelow_iff (i n v : Nat) : dropsBelow i n v = true ↔ ∃ m < n, fusedT^[m + 1] v < i := by
  induction n generalizing v with
  | zero => simp [dropsBelow]
  | succ n ih =>
    have step : dropsBelow i (n + 1) v = true ↔ fusedT v < i ∨ dropsBelow i n (fusedT v) = true := by
      rw [dropsBelow]
      split <;> simp [*]
    rw [step, ih, Nat.exists_lt_succ_left]
    rfl

/-- The next `m + n` steps are the next `m` and then `n` more. -/
theorem dropsBelow_add (i m n v : Nat) :
    dropsBelow i (m + n) v = (dropsBelow i m v || dropsBelow i n (fusedT^[m] v)) := by
  induction m generalizing v with
  | zero => rw [Nat.zero_add]; rfl
  | succ m ih =>
    rw [Nat.succ_add, dropsBelow, dropsBelow, ih, Function.iterate_succ_apply]
    split <;> rfl

/-- The value of an affine form `(a, b)` at `q` (95_test_vectors.md section 5). -/
def formAt (f : Nat × Nat) (q : Nat) : Nat := f.1 * q + f.2

/-- The forms modulo 16 give the fused steps of every value of the residue. -/
theorem formAt_fourStepForm (r q : Nat) {n : Nat} (h : n ≤ 4) :
    formAt (fourStepForm r n) q = fusedT^[n] (16 * q + r) := by
  have residue : 16 * q + r = q * 2 ^ (4 - n) * 2 ^ n + r := by
    rw [mul_assoc, ← pow_add, Nat.sub_add_cancel h, Nat.mul_comm]
    rfl
  rw [formAt, fourStepForm, stepRounds_eq, residue, fusedT_iterate_add]
  ring

theorem lowerForm_eq_or (f g : Nat × Nat) : lowerForm f g = f ∨ lowerForm f g = g := by
  unfold lowerForm
  split <;> simp

theorem exists_lowestForm_eq (r : Nat) : ∃ n < 4, lowestForm r = fourStepForm r (n + 1) := by
  unfold lowestForm
  rcases lowerForm_eq_or (fourStepForm r 1) _ with e | e <;> rw [e]
  · exact ⟨0, by decide, rfl⟩
  rcases lowerForm_eq_or (fourStepForm r 2) _ with e | e <;> rw [e]
  · exact ⟨1, by decide, rfl⟩
  rcases lowerForm_eq_or (fourStepForm r 3) (fourStepForm r 4) with e | e <;> rw [e]
  · exact ⟨2, by decide, rfl⟩
  · exact ⟨3, by decide, rfl⟩

/-- For each of the sixteen residues the four forms have a least one, in both coefficients. -/
theorem lowestForm_le : ∀ r < 16, ∀ n < 4,
    (lowestForm r).1 ≤ (fourStepForm r (n + 1)).1 ∧ (lowestForm r).2 ≤ (fourStepForm r (n + 1)).2 := by decide

/-- Four fused steps drop below `i` exactly when their lowest form does. -/
theorem dropsBelow_four_iff (i q : Nat) {r : Nat} (h : r < 16) :
    dropsBelow i 4 (16 * q + r) = true ↔ formAt (lowestForm r) q < i := by
  rw [dropsBelow_iff]
  constructor
  · rintro ⟨n, hn, below⟩
    rw [← formAt_fourStepForm r q (by omega)] at below
    obtain ⟨slope, offset⟩ := lowestForm_le r h n hn
    exact lt_of_le_of_lt (Nat.add_le_add (Nat.mul_le_mul_right q slope) offset) below
  · intro below
    obtain ⟨n, hn, e⟩ := exists_lowestForm_eq r
    exact ⟨n, hn, by rwa [← formAt_fourStepForm r q (by omega), ← e]⟩

theorem dropsBelowFast_succ (i rest blocks v : Nat) :
    dropsBelowFast i rest (blocks + 1) v = (dropsBelow i 4 v || dropsBelowFast i rest blocks (fusedT^[4] v)) := by
  have value : 16 * (v / 16) + v % 16 = v := Nat.div_add_mod v 16
  have test := dropsBelow_four_iff i (v / 16) (Nat.mod_lt v (by decide : 0 < 16))
  have last := formAt_fourStepForm (v % 16) (v / 16) (le_refl 4)
  rw [value] at test last
  rw [formAt] at test last
  rw [dropsBelowFast, last]
  split
  · next below => rw [test.mpr below, Bool.true_or]
  · next above => rw [Bool.eq_false_of_not_eq_true (mt test.mp above), Bool.false_or]

/-- Blocks of four steps and a rest are as many single steps. -/
theorem dropsBelowFast_eq (i rest blocks v : Nat) :
    dropsBelowFast i rest blocks v = dropsBelow i (4 * blocks + rest) v := by
  induction blocks generalizing v with
  | zero => rw [dropsBelowFast, Nat.mul_zero, Nat.zero_add]
  | succ blocks ih =>
    have steps : 4 * (blocks + 1) + rest = 4 + (4 * blocks + rest) := by ring
    rw [dropsBelowFast_succ, ih, steps, dropsBelow_add i 4]

/-- Settles O54. -/
theorem acceleratedTestAgrees : Obligations.AcceleratedTestAgrees := by
  unfold Obligations.AcceleratedTestAgrees
  intro s i
  rw [resolvedFast, dropsBelowFast_eq, Nat.div_add_mod, resolved]

end Sys2Proof.Machine
end

section
/-! PROOFS of the family 48_host_tables.md, continued: conforming skip tables and the SKIP transition. A candidate's
verdict at a horizon carries over to every candidate a multiple of 2^horizon above it. -/

namespace Sys2Proof.Machine

/-! ## Resolved and unresolved candidates -/

theorem resolved_iff (h i : Nat) : resolved h i = true ↔ ∃ m < h, fusedT^[m + 1] i < i := dropsBelow_iff i h i

/-- 2^n - 1 stays at or above itself for `n` fused steps (48_host_tables.md R203). -/
theorem resolved_ones {h n : Nat} (long : h ≤ n) : resolved h (2 ^ n - 1) = false := by
  refine Bool.eq_false_of_not_eq_true fun drops => ?_
  obtain ⟨m, hm, below⟩ := (resolved_iff _ _).mp drops
  have ones : 2 ^ n = 2 ^ (n - (m + 1)) * 2 ^ (m + 1) := by rw [← pow_add, Nat.sub_add_cancel (by omega)]
  have grows : 2 ^ n ≤ 2 ^ (n - (m + 1)) * 3 ^ (m + 1) := by
    rw [ones]
    exact Nat.mul_le_mul_left _ (Nat.pow_le_pow_left (by decide) _)
  rw [ones, fusedT_iterate_ones _ (Nat.two_pow_pos _), ← ones] at below
  omega

/-- A drop within `n` steps has factors below 2^n, so it happens above every multiple of 2^n too. -/
theorem fusedT_iterate_add_lt {n d : Nat} (drops : fusedT^[n] d < d) (q : Nat) :
    fusedT^[n] (q * 2 ^ n + d) < q * 2 ^ n + d := by
  have small : oddMult n d < 2 ^ n := by
    refine lt_of_mul_lt_mul_right ((oddMult_mul_le n d).trans_lt ?_) (Nat.zero_le d)
    exact Nat.mul_lt_mul_of_pos_left drops (Nat.two_pow_pos n)
  rw [fusedT_iterate_add, Nat.mul_comm]
  exact Nat.add_lt_add_of_le_of_lt (Nat.mul_le_mul_left q small.le) drops

/-- A resolved candidate stays resolved at every multiple of 2^h above it (48_host_tables.md R196). -/
theorem resolved_add {h d : Nat} (res : resolved h d = true) (q : Nat) : resolved h (q * 2 ^ h + d) = true := by
  obtain ⟨m, hm, drops⟩ := (resolved_iff _ _).mp res
  have multiple : q * 2 ^ h = q * 2 ^ (h - (m + 1)) * 2 ^ (m + 1) := by
    rw [mul_assoc, ← pow_add, Nat.sub_add_cancel (by omega)]
  rw [resolved_iff, multiple]
  exact ⟨m, hm, fusedT_iterate_add_lt drops _⟩

/-! ## Conforming tables -/

/-- An entry 4 passes over no candidate, so a table of entries 4 is conforming (48_host_tables.md R198). -/
theorem conformingSkipTable_of_four {h l : Nat} {entry : Nat → Nat} (four : ∀ j < 2 ^ l, entry j = 4) :
    ConformingSkipTable h l entry := by
  refine ⟨fun j hj => by rw [four j hj]; decide, fun c d hc hd above below => ?_⟩
  rw [four _ (Nat.mod_lt _ (Nat.two_pow_pos l))] at below
  omega

/-- Settles O55. -/
theorem trivialSkipTableConforms : Obligations.TrivialSkipTableConforms := by
  unfold Obligations.TrivialSkipTableConforms
  intro h
  refine conformingSkipTable_of_four fun j hj => ?_
  obtain rfl : j = 0 := Nat.lt_one_iff.mp hj
  rfl

/-- Settles O57: a larger entry used at 2^(h+3) - 5 jumps past 2^(h+3) - 1. -/
theorem onlyTheTrivialOneEntryTableConforms : Obligations.OnlyTheTrivialOneEntryTableConforms := by
  unfold Obligations.OnlyTheTrivialOneEntryTableConforms
  refine fun h e => ⟨fun ⟨entries, passes⟩ => ?_, fun four => conformingSkipTable_of_four fun _ _ => four⟩
  obtain ⟨aligned, low, _⟩ : ConformingEntry e := entries 0 Nat.one_pos
  by_contra larger
  have size : 2 ^ (h + 3) = 8 * 2 ^ h := by ring
  have positive := Nat.two_pow_pos h
  have passed : resolved h (2 ^ (h + 3) - 1) = true :=
    passes (2 ^ (h + 3) - 5) _ (by omega) (by omega) (by omega) (show _ < _ + e by omega)
  rw [resolved_ones (by omega)] at passed
  cases passed

/-- A candidate lies a multiple of 2^(l+2) above the first candidate of its slot (48_host_tables.md R196). -/
theorem candidate_eq (l : Nat) {c : Nat} (candidate : c % 4 = 3) :
    c = c / 4 / 2 ^ l * 2 ^ (l + 2) + (4 * (c / 4 % 2 ^ l) + 3) := by
  have slot := Nat.div_add_mod' (c / 4) (2 ^ l)
  have period : c / 4 / 2 ^ l * 2 ^ (l + 2) = 4 * (c / 4 / 2 ^ l * 2 ^ l) := by ring
  omega

/-- Settles O58: from any candidate of a slot the skip passes over what it passes over from the first one, moved up by a
multiple of the horizon's 2^h. -/
theorem firstCandidatesSufficeForFullTables : Obligations.FirstCandidatesSufficeForFullTables := by
  unfold Obligations.FirstCandidatesSufficeForFullTables
  intro h l entry covers
  constructor
  case mp =>
    refine fun first => ⟨fun j hj => (first j hj).1, fun c d hc hd above below => ?_⟩
    obtain ⟨_, passes⟩ := first _ (Nat.mod_lt (c / 4) (Nat.two_pow_pos l))
    have base := candidate_eq l hc
    have period : c / 4 / 2 ^ l * 2 ^ (l + 2) = c / 4 / 2 ^ l * 2 ^ (l + 2 - h) * 2 ^ h := by
      rw [mul_assoc, ← pow_add, Nat.sub_add_cancel covers]
    have aligned : c / 4 / 2 ^ l * 2 ^ (l + 2) % 4 = 0 := by omega
    obtain ⟨d', rfl⟩ : ∃ d', d = c / 4 / 2 ^ l * 2 ^ (l + 2) + d' := Nat.exists_eq_add_of_le (by omega)
    rw [period]
    exact resolved_add (passes d' (by omega) (by omega) (by omega)) _
  case mpr =>
    refine fun ⟨entries, passes⟩ j hj => ⟨entries j hj, fun d hd above below => ?_⟩
    have slot : (4 * j + 3) / 4 % 2 ^ l = j := by
      rw [show (4 * j + 3) / 4 = j by omega, Nat.mod_eq_of_lt hj]
    exact passes (4 * j + 3) d (by omega) hd above (by rwa [slot])

/-! ## The cursor under a conforming table -/

theorem skipIndex_lt (s : State) (c : Word) : skipIndex s c < 2 ^ s.l.toNat := Nat.mod_lt _ (Nat.two_pow_pos _)

/-- Only a SKIP step that goes on moves the cursor (41_sequencer.md R158 to R163). -/
theorem seqStep_cursor_cases (s : State) :
    ((seqStep s).cursor = s.cursor ∧ (s.phase = .skip → (seqStep s).phase = .idle)) ∨
    (s.phase = .skip ∧ (seqStep s).cursor = skipTarget s s.cursor) := by
  cases phase : s.phase with
  | idle => exact .inl ⟨by rw [seqStep_of_idle phase], fun skip => by cases skip⟩
  | outer =>
    refine .inl ⟨?_, fun skip => by cases skip⟩
    rw [seqStep_of_outer phase]
    rcases outerStep_cases s with ⟨_, e⟩ | ⟨_, e⟩ <;> rw [e] <;> rfl
  | inner =>
    refine .inl ⟨?_, fun skip => by cases skip⟩
    rw [seqStep_of_inner phase]
    rcases innerStep_cases s with ⟨_, e⟩ | ⟨_, ⟨_, _, _, e⟩ | ⟨_, _, e⟩⟩ <;> rw [e] <;> rfl
  | skip =>
    rw [seqStep_of_skip phase]
    rcases skipStep_cases s with ⟨_, e⟩ | ⟨_, e⟩ <;> rw [e]
    · exact .inl ⟨rfl, fun _ => rfl⟩
    · exact .inr ⟨rfl, rfl⟩

/-- Settles O51. -/
theorem conformingSkipsKeepCandidates : Obligations.ConformingSkipsKeepCandidates := by
  unfold Obligations.ConformingSkipsKeepCandidates
  intro s conform candidate
  rcases seqStep_cursor_cases s with ⟨stays, ends⟩ | ⟨skip, moves⟩
  · exact ⟨stays ▸ candidate, fun skip goesOn => absurd (ends skip) goesOn⟩
  · have amount : ConformingEntry (skipAmount s s.cursor).toNat := conform _ (skipIndex_lt s s.cursor)
    refine ⟨?_, fun _ _ => ⟨_, amount, ?_⟩⟩
    · obtain ⟨aligned, _⟩ := amount
      rw [moves, skipTarget_toNat]
      omega
    · rw [moves, skipTarget, BitVec.ofNat_toNat]

/-- Settles O59: the cursor after the step is at most the sum, wrapped or not. -/
theorem skipStepsPassResolvedCandidatesOnly : Obligations.SkipStepsPassResolvedCandidatesOnly := by
  unfold Obligations.SkipStepsPassResolvedCandidatesOnly
  rintro s h d ⟨_, passes⟩ _ candidate hd above below
  rcases seqStep_cursor_cases s with ⟨stays, _⟩ | ⟨_, moves⟩
  · rw [stays] at below
    exact absurd below above.not_gt
  · rw [moves, skipTarget_toNat] at below
    exact passes s.cursor.toNat d candidate hd above (below.trans_le (Nat.mod_le _ _))

end Sys2Proof.Machine
end

section
/-! PROOFS of the family 60_exceptions.md: what a command that reports an overflow or an error leaves unchanged, and the end
of a run. -/

namespace Sys2Proof.Machine

/-- A command that reports an overflow or an error ended as an overflow or as a signalled error: every other ending, those
of VERIFY included, clears OVF and ERR (60_exceptions.md R221, R222). -/
theorem CommandEnd.overflow_or_error {s t : State} (h : CommandEnd s t) (reported : t.ovf = true ∨ t.err ≠ .none) :
    t = commandDone s true ∨ ∃ c, t = signalErr s c := by
  cases h with
  | error c => exact .inr ⟨c, rfl⟩
  | flags o =>
    obtain rfl : o = true := reported.resolve_right fun error => error rfl
    exact .inl rfl
  | acc v => simp at reported
  | rtz v => simp at reported
  | empty => simp at reported
  | started _ _ => simp at reported

/-- Settles O21: an overflow writes no error code and a signalled error clears OVF, and neither writes anything else. -/
theorem errorsAndOverflowsArePrecise : Obligations.ErrorsAndOverflowsArePrecise := by
  unfold Obligations.ErrorsAndOverflowsArePrecise
  intro i s t _ e reported
  rcases (exec_commandEnd i e).overflow_or_error reported with rfl | ⟨c, rfl⟩
  · exact ⟨rfl, fun both => both.2 rfl⟩
  · exact ⟨rfl, fun both => Bool.false_ne_true both.1⟩

/-- A run has ended when nothing is pending at the host and the block is idle (60_exceptions.md R237). -/
theorem State.ended_iff (s : State) : s.ended = true ↔ s.host = [] ∧ s.phase = .idle := by
  rw [State.ended, Bool.and_eq_true, decide_eq_true_iff, decide_eq_true_iff]

/-- Settles O56: the idle block leaves the step to the host, which has nothing to do (log 3). -/
theorem endedRunStays : Obligations.EndedRunStays := by
  unfold Obligations.EndedRunStays
  intro s ended
  obtain ⟨nothing, idle⟩ := s.ended_iff.mp ended
  rcases step_cases s with ⟨_, turn⟩ | ⟨busy, _⟩
  · rw [turn, hostStep, State.withSched_host, nothing]
    rfl
  · exact absurd idle busy

end Sys2Proof.Machine
end

section
/-! PROOFS of the family 70_reset_and_hazards.md: the reset event. -/

namespace Sys2Proof.Machine

/-- A reset answers the state of the reset event, whatever the phase and the interleaving that gave it the turn. -/
theorem HostMoves.step_reset {s s' : State} (h : HostMoves s .reset s') : step s = .next (applyReset s') := by
  obtain ⟨u, rest, pending, rfl, turn⟩ := h.step_eq_hostStep
  rw [turn, hostStep, pending]

/-- After a reset no table byte is a written one (10_state.md R43, log 5). -/
theorem tableByte_applyReset (s : State) (a : Nat) :
    tableByte (applyReset s) a = Config.tableByte (applyReset s).epoch a := rfl

/-- The block is not busy after a reset, and every field of STATUS has code 0 (10_state.md R26). -/
theorem statusWord_applyReset (s : State) : statusWord (applyReset s) = 0#64 := by
  have idle : (applyReset s).busy = false := (applyReset s).busy_eq_false.mpr rfl
  rw [statusWord, idle]
  change 0#53 ++ ResultKind.none.code ++ ErrCode.none.code ++ 0#2 ++ BitVec.ofBool false ++ BitVec.ofBool false = 0#64
  decide

/-- Settles O37: the registers have the reset event's values; taking the operation and the turn changes neither the
reset count nor the parameter nor the count of free reads. -/
theorem resetAbandonsEverything : Obligations.ResetAbandonsEverything := by
  unfold Obligations.ResetAbandonsEverything
  intro s s' h
  refine ⟨applyReset s', h.step_reset, rfl, rfl, rfl, rfl, rfl, rfl, rfl, rfl, rfl, rfl, rfl, rfl,
    statusWord_applyReset s', rfl, rfl, tableByte_applyReset s', ?epoch, ?skipLog2Max, rfl, rfl, ?draws⟩
  case epoch => exact congrArg (· + 1) h.sameBlock.epoch
  case skipLog2Max => exact h.sameBlock.skipLog2Max
  case draws => exact h.draws

end Sys2Proof.Machine
end
